-- ==== Sys2Proof/Word.lean ====
section
/-! DEFINITION. The words of the block (00_scope R9, R10): bytes, nibbles, and texts as byte sequences. -/

namespace Sys2Proof

/-- A byte: 8 bits, unsigned, arithmetic modulo 256 (R9). -/
abbrev Byte := BitVec 8

/-- A nibble: the 4-bit half of a byte (R9, R10). -/
abbrev Nibble := BitVec 4

/-- A text: a finite byte sequence, one byte one character code (R9, R55). -/
abbrev Text := List Byte

end Sys2Proof
end

