-- ==== Sys2Proof/Syntax.lean ====
section
/-! DEFINITION. What crosses the block's two ports: requests and their operands, the instructions (every row of
spec/opcode_table.json), output events, latches and responses. Plain data; no meaning stands here. -/

namespace Sys2Proof

/-- The six controller lines (10_state R25). -/
inductive Line where
  | rs | e | d4 | d5 | d6 | d7
  deriving DecidableEq, Repr

/-- The level the block drives on a line: 0, 1, or not driven (R25). -/
inductive Level where
  | low | high | z
  deriving DecidableEq, Repr

/-- The five named durations a `WAIT` can have (00_scope R7, 30_encoding R58). -/
inductive Delay where
  | pulse | settle | initLong | initShort | clear
  deriving DecidableEq, Repr

/-- The output events (30_encoding R58): transport acquired and released, all lines low, one line driven, backlight,
and a minimum wait. -/
inductive Event where
  | acq
  | rel
  | low
  | pin (p : Line) (v : Bool)
  | bl (v : Bool)
  | wait (d : Delay)
  deriving DecidableEq, Repr

/-- The result codes (30_encoding R57); codes 0x3 to 0xF are reserved and have no constructor (93 I2). -/
inductive ResponseCode where
  | ok
  | transportUnavailable
  | invalidGlyphDefinition
  deriving DecidableEq, Repr

/-- A response (30_encoding R56): a code, and the `active` flag for the request `Active` alone. -/
structure Response where
  code : ResponseCode
  value : Option Bool
  deriving DecidableEq, Repr

/-- The `line` operand as a port carries it (30_encoding R55): the mathematical integer itself, or the 32-bit
two's-complement field of a hardware port. -/
inductive LineOperand where
  | int (n : Int)
  | field (f : BitVec 32)
  deriving DecidableEq, Repr

/-- The operands of a request; which of the three it carries depends on `op` (30_encoding R52, R55). -/
inductive Operands where
  | none
  | lineText (line : LineOperand) (text : Text)
  | glyph (position : Byte) (definition : Text)
  deriving DecidableEq, Repr

/-- A request as offered to the request port (30_encoding R52). -/
structure Request where
  op : BitVec 4
  operands : Operands
  deriving DecidableEq, Repr

/-- What the block's two ports carry, as spec/opcode_table.json numbers it: a request; a `NIB4` value rs, nibble; a
`BYTE8` value rs, byte (30_encoding R52, R61). -/
inductive PortItem where
  | request (r : Request)
  | nib4 (v : BitVec 5)
  | byte8 (v : BitVec 9)
  deriving DecidableEq, Repr

/-- The instructions: eight requests (`req…`, 30_encoding R53) and the ten patterns of the output port (`out…`,
30_encoding R62 to R71), one constructor per row of spec/opcode_table.json. -/
inductive Instr where
  | reqOpen
  | reqClose
  | reqReset
  | reqClear
  | reqDisplay (line : Int) (text : Text)
  | reqSetChar (position : Byte) (definition : Text)
  | reqToggleBacklight
  | reqActive
  | outInitNibble3
  | outInitNibble2
  | outFunctionSet
  | outDisplayOn
  | outEntryMode
  | outClearDisplay
  | outDisplayOff
  | outSetDdramAddr (a : BitVec 7)
  | outSetCgramAddr (a : BitVec 6)
  | outWriteData (d : Byte)
  deriving DecidableEq, Repr

/-- Why the decoder gives a port item no instruction. -/
inductive Reject where
  /-- The request's `op` is reserved: 0x0 or 0x9 to 0xF (R54). -/
  | reservedOp (op : BitVec 4)
  /-- The operands are not those the request's `op` takes (R52, R55). -/
  | operandsNotOfOp (op : BitVec 4)
  /-- The `NIB4` value is no row of the table (R72). -/
  | unlistedNibble (v : BitVec 5)
  /-- The `BYTE8` value is no row of the table (R72). -/
  | unlistedByte (v : BitVec 9)
  deriving DecidableEq, Repr

end Sys2Proof
end

