-- ==== Sys2Proof/Config.lean ====
section
/-! DEFINITION. The configuration of a block (00_scope R6 to R8, 10_state R16 to R21), fixed at construction, with the
spec's defaults; and the free values the spec leaves open, as constants without a body. -/

namespace Sys2Proof

/-- The three legal geometries, width by lines (10_state R17). -/
inductive Geometry where
  | g16x2 | g16x4 | g20x4
  deriving DecidableEq, Repr

/-- `CFG.WIDTH`, written W (10_state R17). -/
def Geometry.width : Geometry → Nat
  | .g16x2 => 16
  | .g16x4 => 16
  | .g20x4 => 20

/-- `CFG.LINES`, written L (10_state R17). -/
def Geometry.lines : Geometry → Nat
  | .g16x2 => 2
  | .g16x4 => 4
  | .g20x4 => 4

/-- The six pin identifiers of the GPIO variant. `PinId` is a type parameter, as 10_state R19 says; where none is
written it is `Nat`, the instance the host's interface runs (log entry 2). -/
structure Pins (PinId : Type := Nat) where
  rs : PinId
  e : PinId
  d4 : PinId
  d5 : PinId
  d6 : PinId
  d7 : PinId
  deriving DecidableEq, Repr

/-- `CFG.TRANSPORT` with what only that variant has: pins, or a 7-bit bus address (10_state R16, R19, R20). -/
inductive Transport (PinId : Type := Nat) where
  | gpio (pins : Pins PinId)
  | i2c (addr : BitVec 7)
  deriving DecidableEq, Repr

/-- The timing parameters (00_scope R7). DESIGN CHOICE, log entry 3: in nanoseconds. -/
structure Timing where
  tPulse : Nat
  tSettle : Nat
  tInitLong : Nat
  tInitShort : Nat
  tClear : Nat
  deriving DecidableEq, Repr

/-- `I2C_RENDER` (30_encoding R74): the expander layout, or another rendering, whose bus bytes are left open. -/
inductive I2cRender where
  | expander
  | custom (id : Nat)
  deriving DecidableEq, Repr

/-- The behavioural switches (00_scope R8). -/
structure Switches where
  write4Settle : Bool
  backlightAtOpen : Bool
  resetInvalidatesCache : Bool
  closeClearWait : Bool
  displayOffCmd : Byte
  i2cRender : I2cRender
  deriving DecidableEq, Repr

/-- The configuration registers of a constructed block (10_state R15). -/
structure Config (PinId : Type := Nat) where
  transport : Transport PinId
  geometry : Geometry
  timing : Timing
  switches : Switches
  deriving DecidableEq, Repr

/-- The transport a host asks construction for: the bus address comes in a byte (10_state R20, 90_conflicts C2). -/
inductive RawTransport (PinId : Type := Nat) where
  | gpio (pins : Pins PinId)
  | i2c (busAddress : Byte)
  deriving DecidableEq, Repr

/-- What a host asks construction for; it may be ill-formed (10_state R21). -/
structure RawConfig (PinId : Type := Nat) where
  transport : RawTransport PinId
  width : Nat
  lines : Nat
  timing : Timing
  switches : Switches
  deriving DecidableEq, Repr

/-- The default durations (00_scope R7): 1 us (92 D9), 70 us (92 D8), 5 ms, 120 us, 5 ms. -/
def Timing.default : Timing :=
  { tPulse := 1000, tSettle := 70000, tInitLong := 5000000, tInitShort := 120000, tClear := 5000000 }

/-- The default switches (00_scope R8). -/
def Switches.default : Switches :=
  { write4Settle := true, backlightAtOpen := true, resetInvalidatesCache := false, closeClearWait := true,
    displayOffCmd := 0x08, i2cRender := .expander }

/-- The configuration of `State.reset`. DESIGN CHOICE, log entry 1: GPIO, 16x2, pins 1 to 6, every parameter at its
default; the spec names no configuration as the block's own. -/
def Config.default : Config :=
  { transport := .gpio { rs := 1, e := 2, d4 := 3, d5 := 4, d6 := 5, d7 := 6 }, geometry := .g16x2,
    timing := Timing.default, switches := Switches.default }

/-- Free value, log entry 5: the environment's answer to an acquisition where none has been supplied (00_scope R11,
93 I10), for the `n`-th free value taken. -/
opaque Config.freeAcquire : Nat → Bool

/-- Free value, log entry 6: the arbiter's choice where several may go next (60_exceptions R116, 93 I11), for the
`n`-th free value taken. -/
opaque Config.freePick : Nat → Nat

/-- Free value, log entry 9: the bus bytes of the rendering `id` other than the default one, for a trace
(30_encoding R74, 93 I19). -/
opaque Config.freeBusBytes : Nat → List Event → List Byte

end Sys2Proof
end

