-- ==== Sys2Proof/WellFormed.lean ====
section
/-! DEFINITION. The checks on what the host hands over: a configuration at construction (10_state R17, R19 to R21),
and operands that fit a 32-bit hardware port (30_encoding R55). -/

namespace Sys2Proof

variable {PinId : Type} [DecidableEq PinId]

/-- The six pin identifiers are pairwise distinct (10_state R19). -/
def Pins.distinct (p : Pins PinId) : Bool :=
  decide [p.rs, p.e, p.d4, p.d5, p.d6, p.d7].Nodup

/-- The geometry check of construction (10_state R17, 41 R85): (16,2), (16,4) and (20,4) and no other pair. -/
def RawConfig.geometryOk (r : RawConfig PinId) : Bool :=
  decide ((r.width, r.lines) ∈ [(16, 2), (16, 4), (20, 4)])

/-- The transport check of construction: distinct pins (GPIO, R19), or an address with bit 7 clear (I2C, R20). -/
def RawTransport.ok : RawTransport PinId → Bool
  | .gpio pins => pins.distinct
  | .i2c a => !a.getLsbD 7

/-- A configuration a block is built for (10_state R21). -/
def RawConfig.wf (r : RawConfig PinId) : Bool := r.geometryOk && r.transport.ok

/-- The part of R21 the type `Config` leaves open: distinct pins. Every block's configuration has it. -/
def Config.wf (c : Config PinId) : Bool :=
  match c.transport with
  | .gpio pins => pins.distinct
  | .i2c _ => true

/-- The instruction's operands fit a hardware port, which carries `line` in 32 bits (30_encoding R55). Every operand
is legal on the transaction-level port. -/
def Instr.wf (i : Instr) : Bool :=
  match i with
  | .reqDisplay line _ => decide (-2147483648 ≤ line ∧ line < 2147483648)
  | .reqOpen => true
  | .reqClose => true
  | .reqReset => true
  | .reqClear => true
  | .reqSetChar _ _ => true
  | .reqToggleBacklight => true
  | .reqActive => true
  | .outInitNibble3 => true
  | .outInitNibble2 => true
  | .outFunctionSet => true
  | .outDisplayOn => true
  | .outEntryMode => true
  | .outClearDisplay => true
  | .outDisplayOff => true
  | .outSetDdramAddr _ => true
  | .outSetCgramAddr _ => true
  | .outWriteData _ => true

end Sys2Proof
end

