-- ==== Sys2Proof/Decode.lean ====
section
/-! DEFINITION. The decoder of the request port (30_encoding R53 to R55) and of the output port's words (30_encoding
R61 to R71, spec/opcode_table.json), total, rejecting by name; after it the encoder; and the table's own numbering. -/

namespace Sys2Proof

/-- `line` as the block reads it: the integer, or the sign-extended 32-bit field (R55). -/
def lineOf : LineOperand → Int
  | .int n => n
  | .field f => f.toInt

/-- A request without operands decodes to `i` when it carries none (R52, R53). -/
def bareRequest (r : Request) (i : Instr) : Except Reject Instr :=
  match r.operands with
  | .none => .ok i
  | .lineText _ _ => .error (.operandsNotOfOp r.op)
  | .glyph _ _ => .error (.operandsNotOfOp r.op)

/-- `Display` takes `line` and `text` (R53, R55). -/
def displayOf (r : Request) : Except Reject Instr :=
  match r.operands with
  | .lineText line text => .ok (.reqDisplay (lineOf line) text)
  | .none => .error (.operandsNotOfOp r.op)
  | .glyph _ _ => .error (.operandsNotOfOp r.op)

/-- `SetChar` takes `position` and `definition` (R53, R55). -/
def setCharOf (r : Request) : Except Reject Instr :=
  match r.operands with
  | .glyph position definition => .ok (.reqSetChar position definition)
  | .none => .error (.operandsNotOfOp r.op)
  | .lineText _ _ => .error (.operandsNotOfOp r.op)

/-- The request decoder: the `op` table of R53; every other `op` is reserved (R54). -/
def decodeRequest (r : Request) : Except Reject Instr :=
  if r.op = 0x1 then bareRequest r .reqOpen
  else if r.op = 0x2 then bareRequest r .reqClose
  else if r.op = 0x3 then bareRequest r .reqReset
  else if r.op = 0x4 then bareRequest r .reqClear
  else if r.op = 0x5 then displayOf r
  else if r.op = 0x6 then setCharOf r
  else if r.op = 0x7 then bareRequest r .reqToggleBacklight
  else if r.op = 0x8 then bareRequest r .reqActive
  else .error (.reservedOp r.op)

/-- The `NIB4` rows: rs 0 with nibble 0x3 or 0x2 (R62, R63). -/
def decodeNib4 (v : BitVec 5) : Except Reject Instr :=
  if v = 0x03 then .ok .outInitNibble3
  else if v = 0x02 then .ok .outInitNibble2
  else .error (.unlistedNibble v)

/-- The `BYTE8` rows (R64 to R71): rs 1 is character data; with rs 0, bit 7 marks set-DDRAM-address, bit 6 alone
set-CGRAM-address, and five bytes stand for the fixed commands. -/
def decodeByte8 (v : BitVec 9) : Except Reject Instr :=
  if v &&& 0x100 = 0x100 then .ok (.outWriteData (v.extractLsb' 0 8))
  else if v &&& 0x180 = 0x080 then .ok (.outSetDdramAddr (v.extractLsb' 0 7))
  else if v &&& 0x1C0 = 0x040 then .ok (.outSetCgramAddr (v.extractLsb' 0 6))
  else if v = 0x028 then .ok .outFunctionSet
  else if v = 0x00C then .ok .outDisplayOn
  else if v = 0x006 then .ok .outEntryMode
  else if v = 0x001 then .ok .outClearDisplay
  else if v = 0x008 then .ok .outDisplayOff
  else .error (.unlistedByte v)

/-- The decoder of whatever a port carries. -/
def decode : PortItem → Except Reject Instr
  | .request r => decodeRequest r
  | .nib4 v => decodeNib4 v
  | .byte8 v => decodeByte8 v

/-- The encoder (R53, R62 to R71). `DISPLAY_OFF` has the table's word; a block whose `DISPLAY_OFF_CMD` is another byte
sends that one (log entry 10). -/
def encode : Instr → PortItem
  | .reqOpen => .request { op := 0x1, operands := .none }
  | .reqClose => .request { op := 0x2, operands := .none }
  | .reqReset => .request { op := 0x3, operands := .none }
  | .reqClear => .request { op := 0x4, operands := .none }
  | .reqDisplay line text => .request { op := 0x5, operands := .lineText (.int line) text }
  | .reqSetChar position definition => .request { op := 0x6, operands := .glyph position definition }
  | .reqToggleBacklight => .request { op := 0x7, operands := .none }
  | .reqActive => .request { op := 0x8, operands := .none }
  | .outInitNibble3 => .nib4 0x03
  | .outInitNibble2 => .nib4 0x02
  | .outFunctionSet => .byte8 0x028
  | .outDisplayOn => .byte8 0x00C
  | .outEntryMode => .byte8 0x006
  | .outClearDisplay => .byte8 0x001
  | .outDisplayOff => .byte8 0x008
  | .outSetDdramAddr a => .byte8 (0b01#2 ++ a)
  | .outSetCgramAddr a => .byte8 (0b001#3 ++ a)
  | .outWriteData d => .byte8 (0b1#1 ++ d)

/-- The encoder of a hardware port, which carries `line` as a 32-bit two's-complement field (R55). -/
def encodePort (i : Instr) : PortItem :=
  match i with
  | .reqDisplay line text => .request { op := 0x5, operands := .lineText (.field (BitVec.ofInt 32 line)) text }
  | other => encode other

/-- The operands of a request whose operand words are all zero: line 0 with the empty text, position 0 with the empty
definition. -/
def zeroOperands (op : BitVec 4) : Operands :=
  if op = 0x5 then .lineText (.field 0) []
  else if op = 0x6 then .glyph 0 []
  else .none

/-- The port item that `nbits` bits of value `w` of spec/opcode_table.json stand for: 5 bits a `NIB4` value, 9 or 16
bits a `BYTE8` value, 4 or 8 bits a request's `op` with operand words of zeros. In whole bytes a `NIB4` value is as
long as an `op` and cannot be told from it: 8 bits are read as an `op` (log entry 11). -/
def tableItem (nbits w : Nat) : PortItem :=
  if nbits = 5 then .nib4 (BitVec.ofNat 5 w)
  else if nbits = 9 ∨ nbits = 16 then .byte8 (BitVec.ofNat 9 w)
  else .request { op := BitVec.ofNat 4 w, operands := zeroOperands (BitVec.ofNat 4 w) }

/-- The instruction the decoder reads from a word of spec/opcode_table.json. -/
def decodeTableWord (nbits w : Nat) : Option Instr :=
  match decode (tableItem nbits w) with
  | .ok i => some i
  | .error _ => none

end Sys2Proof
end

