-- ==== Sys2Proof/Machine/State.lean ====
section
/-! DEFINITION. The state of the block (10_state R15 to R33) as plain data, the reasons a step can stop, and the state
after construction. -/

namespace Sys2Proof.Machine

/-- The levels the block drives on the six controller lines (10_state R25). -/
structure Lines where
  rs : Level
  e : Level
  d4 : Level
  d5 : Level
  d6 : Level
  d7 : Level
  deriving DecidableEq, Repr

/-- A port item in service and the requester it came from; none where no requester offered it (log entry 12). -/
structure Service where
  requester : Option Nat
  item : PortItem
  deriving DecidableEq, Repr

/-- The block. `cfg` is the configuration; `active`, `backlight`, `cache`, `lines` and `service` (whose occupation is
the flag `busy`) are the registers; `trace` and `responses` are the output. `requesters` and `acquireAnswers` are
inputs from outside, `draws` counts the free values taken: these three are the model's own. `PinId` is the parameter of
10_state R19. -/
structure State (PinId : Type := Nat) where
  cfg : Config PinId
  active : Bool
  backlight : Bool
  cache : List (Option Text)
  lines : Lines
  service : Option Service
  trace : List Event
  responses : List Response
  requesters : List (List Request)
  acquireAnswers : List Bool
  draws : Nat
  deriving DecidableEq, Repr

/-- Why the machine would stop with a fault. The block has none: it has no trap (60_exceptions R111) and its errors are
responses (R104). So no constructor raises one, and nothing safe or unsafe hangs on it. -/
inductive Fault where
  deriving DecidableEq, Repr

/-- Why a request or a configuration has no meaning. -/
inductive Refusal where
  /-- Raised by an arm of `exec` whose instruction has no meaning yet; safe. No arm does. -/
  | notModelled (mnemonic : String)
  /-- Raised by a step whose port item is no instruction (30_encoding R54, 60_exceptions R107); safe. -/
  | undecodable (why : Reject)
  /-- Raised by `construct`: the pair of width and lines is not a listed geometry (60_exceptions R108); safe. -/
  | unsupportedGeometry (width lines : Nat)
  /-- Raised by `construct`: two pin identifiers are equal (10_state R19, 60_exceptions R108); safe. -/
  | pinsNotDistinct
  /-- Raised by `construct`: the bus address has bit 7 set (10_state R20, 60_exceptions R108); safe. -/
  | busAddressNotSevenBits (busAddress : Byte)
  deriving DecidableEq, Repr

/-- What the request port does next: nothing, take a request into service, run an instruction, or refuse. -/
inductive Turn (PinId : Type := Nat) where
  | idle
  | accept (s : State PinId)
  | run (i : Instr) (s : State PinId)
  | refuse (why : Refusal)
  deriving DecidableEq, Repr

/-- Every line at `Z`: not driven by the block (10_state R25). -/
def Lines.released : Lines := { rs := .z, e := .z, d4 := .z, d5 := .z, d6 := .z, d7 := .z }

/-- The state after construction with a well-formed configuration (10_state R33). -/
def State.fresh {PinId : Type} (c : Config PinId) : State PinId :=
  { cfg := c, active := false, backlight := false, cache := List.replicate c.geometry.lines none,
    lines := Lines.released, service := none, trace := [], responses := [],
    requesters := [], acquireAnswers := [], draws := 0 }

/-- The state after construction, the block's only reset (70 R121), with the configuration of log entry 1. -/
def State.reset : State := State.fresh Config.default

end Sys2Proof.Machine
end

