-- ==== Sys2Proof/Machine/Geometry.lean ====
section
/-! DEFINITION. The line-address mapper, GeometryMap (41_line_address_map), and construction (10_state R21, R33). -/

namespace Sys2Proof.Machine

variable {PinId : Type} [DecidableEq PinId]

/-- `CFG.LINE_ADDR`, written as literal values (41 R83, R84, R87). -/
def lineTable : Geometry → List Byte
  | .g16x2 => [0x80, 0xC0]
  | .g16x4 => [0x80, 0xC0, 0x94, 0xD4]
  | .g20x4 => [0x80, 0xC0, 0x94, 0xD4]

/-- `lineAddr(i)`, defined for i < L; no meaning asks for another line (41 R86). -/
def lineAddr (g : Geometry) (i : Nat) : Byte := (lineTable g).getD i 0

/-- The DDRAM start address of line `i`: the low seven bits of its set-DDRAM-address byte (41 R86). -/
def ddramStart (g : Geometry) (i : Nat) : Nat := ((lineAddr g i).extractLsb' 0 7).toNat

/-- The legal geometry of a pair (W, L), if it is one (10_state R17, 41 R85). -/
def geometryOf (width lines : Nat) : Option Geometry :=
  if width = 16 ∧ lines = 2 then some .g16x2
  else if width = 16 ∧ lines = 4 then some .g16x4
  else if width = 20 ∧ lines = 4 then some .g20x4
  else none

/-- The transport of a well-formed configuration, or why it is refused (10_state R19, R20; 60_exceptions R108). -/
def transportOf : RawTransport PinId → Except Refusal (Transport PinId)
  | .gpio pins => if pins.distinct then .ok (.gpio pins) else .error .pinsNotDistinct
  | .i2c a => if a.getLsbD 7 then .error (.busAddressNotSevenBits a) else .ok (.i2c (a.extractLsb' 0 7))

/-- `construct(CFG)` (41 R85, 60_exceptions R107, R108): the fresh block, or the configuration refused. -/
def construct (r : RawConfig PinId) : Host.Outcome (State PinId) Fault Refusal :=
  match geometryOf r.width r.lines with
  | none => .refused (.unsupportedGeometry r.width r.lines)
  | some g =>
    match transportOf r.transport with
    | .error why => .refused why
    | .ok t => .next (State.fresh { transport := t, geometry := g, timing := r.timing, switches := r.switches })

end Sys2Proof.Machine
end

