-- ==== Sys2Proof/Machine/Operands.lean ====
section
/-! DEFINITION. What the operands of a request mean: nibbles, text normalization, the range of `line`, the glyph byte,
and the segments of a text (00_scope R10, 42_redraw_cache R88, R89, R94, 43_device_ops R101). -/

namespace Sys2Proof.Machine

/-- `hi(v) = v[7:4]` (00_scope R10). -/
def hiNibble (v : Byte) : Nibble := v.extractLsb' 4 4

/-- `lo(v) = v[3:0]` (00_scope R10). -/
def loNibble (v : Byte) : Nibble := v.extractLsb' 0 4

/-- The character code of a space (42 R88). -/
def space : Byte := 0x20

/-- A line of `w` spaces (43 R98). -/
def blankLine (w : Nat) : Text := List.replicate w space

/-- `normalize(text)`: cut to `w` bytes, or padded on the right with spaces (42 R88). -/
def normalize (w : Nat) (text : Text) : Text :=
  if w ≤ text.length then text.take w else text ++ List.replicate (w - text.length) space

/-- `inRange(line)`: 0 ≤ line < L, on mathematical integers (42 R89). -/
def inRange (g : Geometry) (line : Int) : Bool := decide (0 ≤ line ∧ line < (g.lines : Int))

/-- The set-CGRAM-address byte of `SetChar`: (0x40 + position*8) mod 256 (43 R101). -/
def glyphCommand (position : Byte) : Byte := 0x40 + position * 8

/-- The length a glyph definition must have (43 R101). -/
def glyphRows : Nat := 8

/-- The one byte that breaks lines (42 R94). -/
def lineBreak : Byte := 0x0A

/-- `split(text)`: the segments between the line breaks, which are dropped (42 R94). -/
def splitLines : Text → List Text
  | [] => [[]]
  | b :: rest =>
    if b = lineBreak then [] :: splitLines rest
    else
      match splitLines rest with
      | [] => [[b]]
      | seg :: segs => (b :: seg) :: segs

end Sys2Proof.Machine
end

