-- ==== Sys2Proof/Machine/Flags.lean ====
section
/-! DEFINITION. The flag registers and the line cache, each with its one reader and its writers (10_state R22 to R24,
R26; 00_scope R14 counts `active`, `backlight` and `cache` as the flags a request writes). -/

namespace Sys2Proof.Machine

variable {PinId : Type}

/-- `busy`: a request is in service (10_state R26). -/
def State.busy (s : State PinId) : Bool := s.service.isSome

/-- `s.active <- v` (10_state R22). -/
def setActive (v : Bool) (s : State PinId) : State PinId := { s with active := v }

/-- Is this the I2C variant (10_state R16)? -/
def State.isI2c (s : State PinId) : Bool :=
  match s.cfg.transport with
  | .gpio _ => false
  | .i2c _ => true

/-- The flag `backlight`, hard-wired to 0 in the GPIO variant (10_state R23). -/
def readBacklight (s : State PinId) : Bool := s.isI2c && s.backlight

/-- `s.backlight <- v`; the GPIO variant discards the write (10_state R23). -/
def setBacklight (v : Bool) (s : State PinId) : State PinId :=
  { s with backlight := if s.isI2c then v else s.backlight }

/-- `cache[i]`; `None`, never written, where there is no entry (10_state R24). -/
def cacheEntry (i : Nat) (s : State PinId) : Option Text := s.cache.getD i none

/-- `cache[i] <- Some(t)` (42 R92). -/
def setCacheEntry (i : Nat) (t : Text) (s : State PinId) : State PinId := { s with cache := s.cache.set i (some t) }

/-- `cache[i] <- e` for every i in 0 .. L-1 (43 R96, R97, R98). -/
def fillCache (entry : Option Text) (s : State PinId) : State PinId :=
  { s with cache := List.replicate s.cfg.geometry.lines entry }

end Sys2Proof.Machine
end

