-- ==== Sys2Proof/Machine/Ops.lean ====
section
/-! DEFINITION. The primitives of 00_scope R11 over the state: the effect of an output event on the lines (30_encoding
R58), `emit`, `respond`, `raise`, the environment's draw, and the free choice of the arbiter. -/

namespace Sys2Proof.Machine

variable {PinId : Type}

/-- Level 1 is high, level 0 is low. -/
def levelOf (v : Bool) : Level := if v then .high else .low

/-- A driven level as a bit; `Z` reads as 0 (30_encoding R74). -/
def levelBit : Level → Bool
  | .high => true
  | .low => false
  | .z => false

/-- `lines[p]` (10_state R25). -/
def getLine (p : Line) (ls : Lines) : Level :=
  match p with
  | .rs => ls.rs
  | .e => ls.e
  | .d4 => ls.d4
  | .d5 => ls.d5
  | .d6 => ls.d6
  | .d7 => ls.d7

/-- `lines[p] <- v` (10_state R25). -/
def setLine (p : Line) (v : Level) (ls : Lines) : Lines :=
  match p with
  | .rs => { ls with rs := v }
  | .e => { ls with e := v }
  | .d4 => { ls with d4 := v }
  | .d5 => { ls with d5 := v }
  | .d6 => { ls with d6 := v }
  | .d7 => { ls with d7 := v }

/-- All six lines at one level (the effects of `LOW` and `REL`, 30_encoding R58). -/
def allLines (v : Level) : Lines := { rs := v, e := v, d4 := v, d5 := v, d6 := v, d7 := v }

/-- The effect of one event on the lines (30_encoding R58). -/
def applyEvent (ls : Lines) (ev : Event) : Lines :=
  match ev with
  | .acq => ls
  | .rel => allLines .z
  | .low => allLines .low
  | .pin p v => setLine p (levelOf v) ls
  | .bl _ => ls
  | .wait _ => ls

/-- The effect of a run of events on the lines. -/
def applyEvents (ls : Lines) (evs : List Event) : Lines := evs.foldl applyEvent ls

/-- `emit`, for a run of events in order: they are appended to the trace and drive the lines. It is the only writer of
both (00_scope R11, 10_state R25). -/
def emit (evs : List Event) (s : State PinId) : State PinId :=
  { s with trace := s.trace ++ evs, lines := applyEvents s.lines evs }

/-- The request ends with this response (00_scope R11, 30_encoding R56). -/
def answer (code : ResponseCode) (value : Option Bool) (s : State PinId) : State PinId :=
  { s with responses := s.responses ++ [{ code := code, value := value }] }

/-- `respond(OK)`. -/
def respondOk (s : State PinId) : State PinId := answer .ok none s

/-- `raise E`: the request ends with the error code; no trap exists, so nothing is saved and control goes nowhere
(00_scope R11, 60_exceptions R111). -/
def raise (code : ResponseCode) (s : State PinId) : State PinId := answer code none s

/-- `draw acquire_ok` (00_scope R11): the answer the environment supplied, else a free value (log entry 5); and the
state after the draw. -/
def drawAcquire (s : State PinId) : Bool × State PinId :=
  match s.acquireAnswers with
  | a :: rest => (a, { s with acquireAnswers := rest })
  | [] => (Config.freeAcquire s.draws, { s with draws := s.draws + 1 })

/-- A free choice among `n` candidates (log entry 6), and the state after it. -/
def drawPick (n : Nat) (s : State PinId) : Nat × State PinId :=
  (Config.freePick s.draws % n, { s with draws := s.draws + 1 })

/-- The 4-bit number of a result code (30_encoding R57). -/
def codeBits : ResponseCode → BitVec 4
  | .ok => 0x0
  | .transportUnavailable => 0x1
  | .invalidGlyphDefinition => 0x2

end Sys2Proof.Machine
end

