-- ==== Sys2Proof/Machine/Framer.lean ====
section
/-! DEFINITION. The nibble framer, ProtocolEncoder (40_nibble_framer R77 to R80), and the runs of framer calls shared
by the requests (42 R90, 43 R98, R100, R101), each as the list of events it emits. -/

namespace Sys2Proof.Machine

variable {PinId : Type}

/-- `pulse(n)` (R77): data lines D4 to D7 with bits 0 to 3, then E up and down, a pulse wait around each edge. -/
def pulse (n : Nibble) : List Event :=
  [.pin .d4 (n.getLsbD 0), .pin .d5 (n.getLsbD 1), .pin .d6 (n.getLsbD 2), .pin .d7 (n.getLsbD 3),
   .wait .pulse, .pin .e true, .wait .pulse, .pin .e false, .wait .pulse]

/-- `write4Bits(v, rs)` (R78): the low nibble alone; the settle wait by the switch `WRITE4_SETTLE`. -/
def write4Bits (c : Config PinId) (v : Byte) (rs : Bool) : List Event :=
  .pin .rs rs :: (pulse (loNibble v) ++ if c.switches.write4Settle then [.wait .settle] else [])

/-- `writeByte(v, rs)` (R79): high nibble, low nibble, one settle wait. -/
def writeByte (v : Byte) (rs : Bool) : List Event :=
  .pin .rs rs :: (pulse (hiNibble v) ++ pulse (loNibble v) ++ [.wait .settle])

/-- A command byte: `C(xx)` of 30_encoding R60. -/
def command (v : Byte) : List Event := writeByte v false

/-- A character byte: `D(xx)` of 30_encoding R60. -/
def character (v : Byte) : List Event := writeByte v true

/-- A run of character bytes in order (20_memory R39). -/
def characters (t : Text) : List Event := t.flatMap character

/-- The clear command followed by its wait (30_encoding R67, 70 R129). -/
def clearCommand : List Event := command 0x01 ++ [.wait .clear]

/-- `initSeq()` (R80). -/
def initSeq (c : Config PinId) : List Event :=
  write4Bits c 0x3 false ++ [.wait .initLong] ++
  write4Bits c 0x3 false ++ [.wait .initShort] ++
  write4Bits c 0x3 false ++ [.wait .initShort] ++
  write4Bits c 0x2 false ++ [.wait .initShort] ++
  command 0x28 ++ command 0x0C ++ command 0x06 ++ clearCommand

/-- A line addressed by `a` and written with `t` (42 R90, step 4). -/
def lineWrite (a : Byte) (t : Text) : List Event := command a ++ characters t

/-- `clearLines()` (43 R98): every line of the geometry, in order, written with spaces. -/
def clearLines (g : Geometry) : List Event :=
  (lineTable g).flatMap fun a => lineWrite a (blankLine g.width)

/-- The two commands of `Close`: clear, its wait by the switch `CLOSE_CLEAR_WAIT`, display off (43 R100). -/
def closeCommands (c : Config PinId) : List Event :=
  (if c.switches.closeClearWait then clearCommand else command 0x01) ++ command c.switches.displayOffCmd

/-- A glyph addressed and written, its rows in order (43 R101). -/
def glyphWrite (position : Byte) (definition : Text) : List Event :=
  command (glyphCommand position) ++ characters definition

end Sys2Proof.Machine
end

