-- ==== Sys2Proof/Machine/Glyph.lean ====
section
/-! DEFINITION. The request SetChar (43_device_ops R101). -/

namespace Sys2Proof.Machine

variable {PinId : Type}

/-- `SetChar(position, definition)` (43 R101, 60_exceptions R106, R110): the length is checked first, then `active`. -/
def execReqSetChar (position : Byte) (definition : Text) (s : State PinId) : Host.Outcome (State PinId) Fault Refusal :=
  .next
    (if definition.length ≠ glyphRows then raise .invalidGlyphDefinition s
    else if s.active then respondOk (emit (glyphWrite position definition) s)
    else respondOk s)

end Sys2Proof.Machine
end

