-- ==== Sys2Proof/Machine/Lifecycle.lean ====
section
/-! DEFINITION. The lifecycle requests of DisplayDevice: Open, Close, Reset, ToggleBacklight, Active (43_device_ops
R95 to R97, R100, R102, R103). -/

namespace Sys2Proof.Machine

variable {PinId : Type}

/-- `s.backlight <- v; emit BL(v)` in the I2C variant; nothing in the GPIO variant (43 R96, R100). -/
def lightBacklight (v : Bool) (s : State PinId) : State PinId :=
  if s.isI2c then emit [.bl v] (setBacklight v s) else s

/-- `Open` of an inactive block once the environment has answered (43 R96). -/
def openWith (acquireOk : Bool) (s : State PinId) : State PinId :=
  if acquireOk then
    let s1 := lightBacklight s.cfg.switches.backlightAtOpen (emit [.acq, .low] s)
    respondOk (setActive true (emit (initSeq s.cfg) (fillCache none s1)))
  else raise .transportUnavailable s

/-- `Open()` (43 R96, 60_exceptions R105, R110). -/
def execReqOpen (s : State PinId) : Host.Outcome (State PinId) Fault Refusal :=
  .next (if s.active then respondOk s else openWith (drawAcquire s).1 (drawAcquire s).2)

/-- The effect of `Close` on an active block (43 R100). -/
def closeActive (s : State PinId) : State PinId :=
  let s1 := fillCache (some (blankLine s.cfg.geometry.width)) (emit (clearLines s.cfg.geometry) s)
  let s2 := lightBacklight false (emit (closeCommands s.cfg) s1)
  respondOk (setActive false (emit [.low, .rel] s2))

/-- `Close()` (43 R100). -/
def execReqClose (s : State PinId) : Host.Outcome (State PinId) Fault Refusal :=
  .next (if s.active then closeActive s else respondOk s)

/-- The effect of `Reset` on an active block (43 R97). -/
def resetActive (s : State PinId) : State PinId :=
  let s1 := emit (initSeq s.cfg) s
  respondOk (if s.cfg.switches.resetInvalidatesCache then fillCache none s1 else s1)

/-- `Reset()` (43 R97, 70 R122). -/
def execReqReset (s : State PinId) : Host.Outcome (State PinId) Fault Refusal :=
  .next (if s.active then resetActive s else respondOk s)

/-- `ToggleBacklight()` (43 R102): a no-op in the GPIO variant and on an inactive block. -/
def execReqToggleBacklight (s : State PinId) : Host.Outcome (State PinId) Fault Refusal :=
  .next (if s.isI2c && s.active then respondOk (lightBacklight (!readBacklight s) s) else respondOk s)

/-- `Active()` (43 R103): the flag, whatever the state. -/
def execReqActive (s : State PinId) : Host.Outcome (State PinId) Fault Refusal :=
  .next (answer .ok (some s.active) s)

end Sys2Proof.Machine
end

