-- ==== Sys2Proof/Machine/Output.lean ====
section
/-! DEFINITION. The ten patterns of the output port (30_encoding R62 to R71), each the framer call that emits it. They
are no requests: they answer nothing, and a requester cannot offer one (log entry 12). -/

namespace Sys2Proof.Machine

variable {PinId : Type}

/-- `INIT_NIBBLE_3` (30_encoding R62): write4Bits(0x3, 0). -/
def execOutInitNibble3 (s : State PinId) : Host.Outcome (State PinId) Fault Refusal :=
  .next (emit (write4Bits s.cfg 0x3 false) s)

/-- `INIT_NIBBLE_2` (30_encoding R63): write4Bits(0x2, 0). -/
def execOutInitNibble2 (s : State PinId) : Host.Outcome (State PinId) Fault Refusal :=
  .next (emit (write4Bits s.cfg 0x2 false) s)

/-- `FUNCTION_SET` (30_encoding R64): writeByte(0x28, 0). -/
def execOutFunctionSet (s : State PinId) : Host.Outcome (State PinId) Fault Refusal :=
  .next (emit (command 0x28) s)

/-- `DISPLAY_ON` (30_encoding R65): writeByte(0x0C, 0). -/
def execOutDisplayOn (s : State PinId) : Host.Outcome (State PinId) Fault Refusal :=
  .next (emit (command 0x0C) s)

/-- `ENTRY_MODE` (30_encoding R66): writeByte(0x06, 0). -/
def execOutEntryMode (s : State PinId) : Host.Outcome (State PinId) Fault Refusal :=
  .next (emit (command 0x06) s)

/-- `CLEAR_DISPLAY` (30_encoding R67): writeByte(0x01, 0), followed by WAIT(T_CLEAR) as the table's row and 70 R129 say
(log entry 13). -/
def execOutClearDisplay (s : State PinId) : Host.Outcome (State PinId) Fault Refusal :=
  .next (emit clearCommand s)

/-- `DISPLAY_OFF` (30_encoding R68): writeByte(DISPLAY_OFF_CMD, 0). -/
def execOutDisplayOff (s : State PinId) : Host.Outcome (State PinId) Fault Refusal :=
  .next (emit (command s.cfg.switches.displayOffCmd) s)

/-- `SET_DDRAM_ADDR` (30_encoding R69): writeByte of 1aaaaaaa in command mode. -/
def execOutSetDdramAddr (a : BitVec 7) (s : State PinId) : Host.Outcome (State PinId) Fault Refusal :=
  .next (emit (command (0b1#1 ++ a)) s)

/-- `SET_CGRAM_ADDR` (30_encoding R70): writeByte of 01aaaaaa in command mode. -/
def execOutSetCgramAddr (a : BitVec 6) (s : State PinId) : Host.Outcome (State PinId) Fault Refusal :=
  .next (emit (command (0b01#2 ++ a)) s)

/-- `WRITE_DATA` (30_encoding R71): writeByte of the byte in character mode. -/
def execOutWriteData (d : Byte) (s : State PinId) : Host.Outcome (State PinId) Fault Refusal :=
  .next (emit (character d) s)

end Sys2Proof.Machine
end

