-- ==== Sys2Proof/Machine/Redraw.lean ====
section
/-! DEFINITION. The redraw cache, RedrawCache: the requests Display and Clear (42_redraw_cache R90 to R92, 43_device_ops
R98, R99), and the host's expansion of DisplayLines (42 R93). -/

namespace Sys2Proof.Machine

variable {PinId : Type}

/-- `Display` of a normalized text on a line in range: a cache hit does nothing (42 R91), a miss writes the line and
then the entry (42 R90, R92). -/
def displayLine (i : Nat) (t : Text) (s : State PinId) : State PinId :=
  if cacheEntry i s = some t then respondOk s
  else respondOk (setCacheEntry i t (emit (lineWrite (lineAddr s.cfg.geometry i) t) s))

/-- `Display(line, text)` (42 R90). -/
def execReqDisplay (line : Int) (text : Text) (s : State PinId) : Host.Outcome (State PinId) Fault Refusal :=
  .next
    (if s.active && inRange s.cfg.geometry line then
      displayLine line.toNat (normalize s.cfg.geometry.width text) s
    else respondOk s)

/-- `Clear()` (43 R98, R99): unconditional writes of spaces, and the cache filled with them. -/
def execReqClear (s : State PinId) : Host.Outcome (State PinId) Fault Refusal :=
  .next
    (if s.active then
      respondOk (fillCache (some (blankLine s.cfg.geometry.width)) (emit (clearLines s.cfg.geometry) s))
    else respondOk s)

/-- The `Display` request for a segment and its index, as the host offers it (42 R93). -/
def displayRequest (segment : Text) (k : Nat) : Request :=
  { op := 0x5, operands := .lineText (.int (k : Int)) segment }

/-- `DisplayLines(text)`: one `Display` request per segment, in order, segment index = line index (42 R93). -/
def displayLines (text : Text) : List Request :=
  (splitLines text).mapIdx fun k segment => displayRequest segment k

end Sys2Proof.Machine
end

