-- ==== Sys2Proof/Machine/Dispatch.lean ====
section
/-! DEFINITION. One arm per instruction; each calls its meaning. -/

namespace Sys2Proof.Machine

/-- The meaning of an instruction (00_scope R13, with the draw taken from the state). -/
def exec (i : Instr) (s : State) : Host.Outcome State Fault Refusal :=
  match i with
  | .reqOpen => Sys2Proof.Machine.execReqOpen s
  | .reqClose => Sys2Proof.Machine.execReqClose s
  | .reqReset => Sys2Proof.Machine.execReqReset s
  | .reqClear => Sys2Proof.Machine.execReqClear s
  | .reqDisplay line text => Sys2Proof.Machine.execReqDisplay line text s
  | .reqSetChar position definition => Sys2Proof.Machine.execReqSetChar position definition s
  | .reqToggleBacklight => Sys2Proof.Machine.execReqToggleBacklight s
  | .reqActive => Sys2Proof.Machine.execReqActive s
  | .outInitNibble3 => Sys2Proof.Machine.execOutInitNibble3 s
  | .outInitNibble2 => Sys2Proof.Machine.execOutInitNibble2 s
  | .outFunctionSet => Sys2Proof.Machine.execOutFunctionSet s
  | .outDisplayOn => Sys2Proof.Machine.execOutDisplayOn s
  | .outEntryMode => Sys2Proof.Machine.execOutEntryMode s
  | .outClearDisplay => Sys2Proof.Machine.execOutClearDisplay s
  | .outDisplayOff => Sys2Proof.Machine.execOutDisplayOff s
  | .outSetDdramAddr a => Sys2Proof.Machine.execOutSetDdramAddr a s
  | .outSetCgramAddr a => Sys2Proof.Machine.execOutSetCgramAddr a s
  | .outWriteData d => Sys2Proof.Machine.execOutWriteData d s

end Sys2Proof.Machine
end

