-- ==== Sys2Proof/Machine/Port.lean ====
section
/-! DEFINITION. The request port: which request is accepted next, the request in service, and the request `Active`,
which never waits (10_state R26, 20_memory R47, R48, 60_exceptions R116); and what a host can do at the port. -/

namespace Sys2Proof.Machine

variable {PinId : Type}

/-- The request requester `k` offers, if it offers one. -/
def offered (k : Nat) (s : State PinId) : Option Request := (s.requesters.getD k []).head?

/-- Requester `k`'s offer is taken; its later requests stay, in order. -/
def takeOffer (k : Nat) (s : State PinId) : State PinId := { s with requesters := s.requesters.modify k List.tail }

/-- Is this the request `Active` (30_encoding R53)? -/
def isActiveRequest (r : Request) : Bool := decide (r = { op := 0x8, operands := .none })

/-- The requesters with a request waiting. -/
def waiting (s : State PinId) : List Nat :=
  (List.range s.requesters.length).filter fun k => (offered k s).isSome

/-- The requesters with the request `Active` waiting. The requester whose request is in service is none of them: it
waits for that response before it offers the next (10_state R26, 60_exceptions R116). -/
def waitingActive (s : State PinId) : List Nat :=
  (waiting s).filter fun k =>
    decide (s.service.bind Service.requester ≠ some k) && (offered k s).any isActiveRequest

/-- One of the requesters `ks` and the state after choosing it, if there are any: the only one, or a free choice among
several (log entry 6). -/
def pickOne (ks : List Nat) (s : State PinId) : Option (Nat × State PinId) :=
  match ks with
  | [] => none
  | [k] => some (k, s)
  | k :: k' :: rest =>
    let pick := drawPick (rest.length + 2) s
    some ((k :: k' :: rest).getD pick.1 k, pick.2)

/-- Requester `k`'s offer goes into service; what is no request is refused (30_encoding R52, R54, 60_exceptions
R107). -/
def acceptFrom (k : Nat) (s : State PinId) : Turn PinId :=
  match offered k s with
  | none => .idle
  | some r =>
    match decode (.request r) with
    | .error why => .refuse (.undecodable why)
    | .ok _ => .accept { takeOffer k s with service := some { requester := some k, item := .request r } }

/-- The item in service runs to its end and leaves service (60_exceptions R117). -/
def serve (sv : Service) (s : State PinId) : Turn PinId :=
  match decode sv.item with
  | .error why => .refuse (.undecodable why)
  | .ok i => .run i { s with service := none }

/-- What the port does next where no `Active` waits: the request in service runs; a free port accepts one waiting
request, and which of several is left open (60_exceptions R116). -/
def serviceTurn (s : State PinId) : Turn PinId :=
  match s.service with
  | some sv => serve sv s
  | none =>
    match pickOne (waiting s) s with
    | none => .idle
    | some (k, s') => acceptFrom k s'

/-- What the port does next: a waiting `Active` is answered before anything else, whatever is in service, since it
never waits (20_memory R48, 43_device_ops R103, 60_exceptions R116, 92 D35). -/
def turn (s : State PinId) : Turn PinId :=
  match pickOne (waitingActive s) s with
  | some (k, s') => .run .reqActive (takeOffer k s')
  | none => serviceTurn s

/-- The block is quiescent: nothing in service, nothing waiting (70 R136). -/
def quiescent (s : State PinId) : Bool := !s.busy && (waiting s).isEmpty

/-- A host offers a further request as requester `k` (30_encoding R52, 60_exceptions R116). -/
def State.offer (k : Nat) (r : Request) (s : State PinId) : State PinId :=
  { s with
    requesters :=
      (s.requesters ++ List.replicate (k + 1 - s.requesters.length) []).modify k fun q => q ++ [r] }

/-- The environment supplies the answer to a coming acquisition (00_scope R11). -/
def State.supplyAnswer (ok : Bool) (s : State PinId) : State PinId :=
  { s with acquireAnswers := s.acquireAnswers ++ [ok] }

/-- The state in which the next step runs `item` and nothing else can come first: `Active` is offered to a free port,
anything else is in service (log entry 12). -/
def placeItem (item : PortItem) (s : State PinId) : State PinId :=
  match item with
  | .request r =>
    if isActiveRequest r then { s with service := none, requesters := [[r]] }
    else { s with service := some { requester := none, item := item }, requesters := [] }
  | .nib4 _ => { s with service := some { requester := none, item := item }, requesters := [] }
  | .byte8 _ => { s with service := some { requester := none, item := item }, requesters := [] }

end Sys2Proof.Machine
end

