-- ==== Sys2Proof/Machine/Step.lean ====
section
/-! DEFINITION. One step of the machine: the request port's turn, and the instruction it runs. -/

namespace Sys2Proof.Machine

/-- One step: a free port accepts a request; a request in service runs whole (00_scope R13); a quiescent block waits
unchanged (70 R121, R136). -/
def step (s : State) : Host.Outcome State Fault Refusal :=
  match turn s with
  | .idle => .next s
  | .accept s' => .next s'
  | .run i s' => exec i s'
  | .refuse why => .refused why

/-- `s` with the table's word `w` of `nbits` bits placed where the next step takes it (log entry 12). -/
def State.withFetchWord (s : State) (nbits w : Nat) : State := placeItem (tableItem nbits w) s

end Sys2Proof.Machine
end

