-- ==== Sys2Proof/Machine/Trace.lean ====
section
/-! DEFINITION. Observers of an output trace: what the controller latches (30_encoding R59), the transfers and bytes it
is sent (R60, R61), where data bytes go (20_memory R35, R45), event counts (R76) and minimum waits (00_scope R12). None
of them is state of the block. -/

namespace Sys2Proof.Machine

/-- What the controller takes at one enable pulse (30_encoding R59). -/
structure Latch where
  rs : Bool
  nibble : Nibble
  deriving DecidableEq, Repr

/-- The nibble on the data lines: D7 D6 D5 D4, most significant first (30_encoding R59). -/
def nibbleOn (ls : Lines) : Nibble :=
  BitVec.ofBool (levelBit ls.d7) ++ BitVec.ofBool (levelBit ls.d6) ++
    (BitVec.ofBool (levelBit ls.d5) ++ BitVec.ofBool (levelBit ls.d4))

/-- The latch that this event makes on these lines: `PIN(E, 0)` that finds E at 1 (30_encoding R59). -/
def latchAt (ls : Lines) (ev : Event) : Option Latch :=
  if ev = .pin .e false ∧ ls.e = .high then some { rs := levelBit ls.rs, nibble := nibbleOn ls } else none

/-- `latches(trace)`, from the lines as they stand before it (30_encoding R59). -/
def latchesFrom (ls : Lines) : List Event → List Latch
  | [] => []
  | ev :: evs => (latchAt ls ev).toList ++ latchesFrom (applyEvent ls ev) evs

/-- The duration of a wait (00_scope R7), in nanoseconds. -/
def duration (t : Timing) : Delay → Nat
  | .pulse => t.tPulse
  | .settle => t.tSettle
  | .initLong => t.tInitLong
  | .initShort => t.tInitShort
  | .clear => t.tClear

/-- The wait an event is, 0 for an event that is none. -/
def waitOf (t : Timing) : Event → Nat
  | .wait d => duration t d
  | .acq => 0
  | .rel => 0
  | .low => 0
  | .pin _ _ => 0
  | .bl _ => 0

/-- The minimum total wait of a trace (00_scope R12, 70 R135). -/
def minWait (t : Timing) (evs : List Event) : Nat := (evs.map (waitOf t)).sum

/-- The waits of a trace, in order. -/
def waitsOf : List Event → List Delay
  | [] => []
  | .wait d :: evs => d :: waitsOf evs
  | _ :: evs => waitsOf evs

/-- Real durations that a realization may take for the waits of a trace: one each, none below its bound (00_scope R12,
93 I8). -/
def realizesWaits (t : Timing) (evs : List Event) (real : List Nat) : Bool :=
  decide (List.Forall₂ (fun d n => duration t d ≤ n) (waitsOf evs) real)

/-- A physical write (30_encoding R76): a `PIN`, `LOW` or `BL` event. -/
def isPhysicalWrite : Event → Bool
  | .low => true
  | .pin _ _ => true
  | .bl _ => true
  | .acq => false
  | .rel => false
  | .wait _ => false

/-- The physical write count of a trace (30_encoding R76). -/
def physicalWrites (evs : List Event) : Nat := (evs.filter isPhysicalWrite).length

/-- Is it a `PIN` event? -/
def isPin : Event → Bool
  | .pin _ _ => true
  | .acq => false
  | .rel => false
  | .low => false
  | .bl _ => false
  | .wait _ => false

/-- Is it a `WAIT` event? -/
def isWait : Event → Bool
  | .wait _ => true
  | .acq => false
  | .rel => false
  | .low => false
  | .pin _ _ => false
  | .bl _ => false

/-- The number of `PIN` events of a trace (70 R135). -/
def pinCount (evs : List Event) : Nat := evs.countP isPin

/-- The number of `WAIT` events of a trace (70 R135). -/
def waitCount (evs : List Event) : Nat := evs.countP isWait

/-- One framer call seen on the lines: it begins by driving RS; its latches; the waits from the latch before it to its
first, and from its last latch to the next transition of a line. -/
structure Transfer where
  rs : Bool
  nibbles : List Nibble
  gapBefore : Nat
  settleAfter : Nat
  deriving DecidableEq, Repr

/-- The reader of transfers: the lines, the call being read, whether it is still settling, the waits since the last
latch, and the calls read so far. -/
structure Scan where
  lines : Lines
  current : Option Transfer
  settling : Bool
  sinceLatch : Nat
  done : List Transfer
  deriving DecidableEq, Repr

/-- Reading begins on these lines. -/
def Scan.start (ls : Lines) : Scan :=
  { lines := ls, current := none, settling := false, sinceLatch := 0, done := [] }

/-- The call being read ends here. -/
def closeTransfer (sc : Scan) : Scan := { sc with current := none, done := sc.done ++ sc.current.toList }

/-- A latch is added to the call being read. -/
def addLatch (l : Latch) (sc : Scan) : Scan :=
  let t := sc.current.getD { rs := l.rs, nibbles := [], gapBefore := 0, settleAfter := 0 }
  let gap := if t.nibbles.isEmpty then sc.sinceLatch else t.gapBefore
  { sc with
    current := some { t with nibbles := t.nibbles ++ [l.nibble], gapBefore := gap, settleAfter := 0 },
    settling := true, sinceLatch := 0 }

/-- A wait passes. -/
def addWait (d : Nat) (sc : Scan) : Scan :=
  { sc with
    current := sc.current.map fun t => if sc.settling then { t with settleAfter := t.settleAfter + d } else t,
    sinceLatch := sc.sinceLatch + d }

/-- One event read. A `PIN` that is no latch ends the settle time whether or not it changes the level (log entry 24). -/
def scanEvent (t : Timing) (sc : Scan) (ev : Event) : Scan :=
  let sc1 :=
    match ev with
    | .pin .rs v =>
      { closeTransfer sc with
        current := some { rs := v, nibbles := [], gapBefore := 0, settleAfter := 0 }, settling := false }
    | .low => closeTransfer sc
    | .rel => closeTransfer sc
    | .wait d => addWait (duration t d) sc
    | .pin p v =>
      match latchAt sc.lines (.pin p v) with
      | some l => addLatch l sc
      | none => { sc with settling := false }
    | .acq => sc
    | .bl _ => sc
  { sc1 with lines := applyEvent sc.lines ev }

/-- The transfers of a trace, from the lines as they stand before it (30_encoding R60, R61). -/
def transfersFrom (t : Timing) (ls : Lines) (evs : List Event) : List Transfer :=
  (closeTransfer (evs.foldl (scanEvent t) (Scan.start ls))).done

/-- The output-port word a transfer is: `NIB4` for one latch, `BYTE8` for two, high nibble first (30_encoding R61). -/
def transferWord (t : Transfer) : Option PortItem :=
  match t.nibbles with
  | [n] => some (.nib4 (BitVec.ofBool t.rs ++ n))
  | [h, l] => some (.byte8 (BitVec.ofBool t.rs ++ (h ++ l)))
  | _ => none

/-- The output-port words of a trace; a transfer of no known length leaves none in its place. -/
def outputWords (ls : Lines) (evs : List Event) : List (Option PortItem) :=
  (transfersFrom Timing.default ls evs).map transferWord

/-- The controller's two memories (20_memory R35). -/
inductive Space where
  | ddram | cgram
  deriving DecidableEq, Repr

/-- A data byte and the cell it is written to. -/
structure CellWrite where
  space : Space
  address : Nat
  value : Byte
  deriving DecidableEq, Repr

/-- The cells the data bytes of a run of output instructions go to, from the controller's current address if the block
has set one: set-address commands set it, clear sets DDRAM 0, and it advances by 1 after a data byte (20_memory R35).
PRESUMED, log entry 14: from general knowledge, as the spec marks it; no rule of the block rests on it. -/
def cellWrites : Option (Space × Nat) → List Instr → List CellWrite
  | _, [] => []
  | at_, i :: rest =>
    match i with
    | .outSetDdramAddr a => cellWrites (some (.ddram, a.toNat)) rest
    | .outSetCgramAddr a => cellWrites (some (.cgram, a.toNat)) rest
    | .outClearDisplay => cellWrites (some (.ddram, 0)) rest
    | .outWriteData d =>
      match at_ with
      | some (sp, n) => { space := sp, address := n, value := d } :: cellWrites (some (sp, n + 1)) rest
      | none => cellWrites none rest
    | _ => cellWrites at_ rest

/-- The instruction of an output word, if it is a row of the table. -/
def instrOfWord (w : Option PortItem) : Option Instr := w.bind fun item => (decode item).toOption

/-- The instructions the words of a trace decode to; a word that is no row of the table gives none. -/
def outputInstrs (ls : Lines) (evs : List Event) : List Instr := (outputWords ls evs).filterMap instrOfWord

/-- The cells a trace writes (20_memory R35, R45). -/
def addressedWrites (ls : Lines) (evs : List Event) : List CellWrite := cellWrites none (outputInstrs ls evs)

/-- Is the transport held after an event? It is acquired by `ACQ` and released by `REL` (30_encoding R58). -/
def heldAfter (held : Bool) : Event → Bool
  | .acq => true
  | .rel => false
  | .low => held
  | .pin _ _ => held
  | .bl _ => held
  | .wait _ => held

/-- Is the transport held after this trace (10_state R30)? -/
def transportHeld (evs : List Event) : Bool := evs.foldl heldAfter false

end Sys2Proof.Machine
end

