-- ==== Sys2Proof/Machine/Hazards.lean ====
section
/-! DEFINITION. The hazards a realization must respect, as checks on a trace (70_reset_and_hazards R127 to R130). -/

namespace Sys2Proof.Machine

variable {PinId : Type}

/-- The reader of enable pulses: the lines, and the waits since the last drive of RS or a data line, since E rose, and
since E fell (none where it has not fallen, or another line has been driven since). -/
structure PulseWatch where
  lines : Lines
  sinceData : Nat
  sinceRise : Nat
  sinceFall : Option Nat
  deriving DecidableEq, Repr

/-- Watching begins on these lines. -/
def PulseWatch.start (ls : Lines) : PulseWatch := { lines := ls, sinceData := 0, sinceRise := 0, sinceFall := none }

/-- The watch after an event. Every `PIN`, `LOW` and `REL` counts as a move of its line, whether or not it changes the level
(log entry 24). -/
def watchEvent (t : Timing) (w : PulseWatch) (ev : Event) : PulseWatch :=
  let w1 : PulseWatch :=
    match ev with
    | .wait d =>
      { w with
        sinceData := w.sinceData + duration t d, sinceRise := w.sinceRise + duration t d,
        sinceFall := w.sinceFall.map (· + duration t d) }
    | .pin .e true => { w with sinceRise := 0, sinceFall := none }
    | .pin .e false => { w with sinceFall := if w.lines.e = .high then some 0 else w.sinceFall }
    | .pin _ _ => { w with sinceData := 0, sinceFall := none }
    | .low => { w with sinceData := 0, sinceFall := none }
    | .rel => { w with sinceData := 0, sinceFall := none }
    | .acq => w
    | .bl _ => w
  { w1 with lines := applyEvent w.lines ev }

/-- The lines have held long enough after the last latch for one of them to move (R130). -/
def heldAfterFall (t : Timing) (w : PulseWatch) : Bool :=
  match w.sinceFall with
  | none => true
  | some d => decide (t.tPulse ≤ d)

/-- An event keeps R130: E rises at least `T_PULSE` after RS and the data lines were driven, falls at least `T_PULSE`
after it rose, no line moves within `T_PULSE` of the fall, and no line but E moves while E is high. To drive a line is to
move it, whether or not the level changes (log entry 24). -/
def pulseEventOk (t : Timing) (w : PulseWatch) (ev : Event) : Bool :=
  match ev with
  | .pin .e true => heldAfterFall t w && decide (t.tPulse ≤ w.sinceData)
  | .pin .e false => if w.lines.e = .high then decide (t.tPulse ≤ w.sinceRise) else heldAfterFall t w
  | .pin _ _ => heldAfterFall t w && decide (w.lines.e ≠ .high)
  | .low => heldAfterFall t w
  | .rel => heldAfterFall t w
  | .acq => true
  | .bl _ => true
  | .wait _ => true

/-- Enable pulse timing (R130) of a trace. -/
def pulseTimingOk (t : Timing) (w : PulseWatch) : List Event → Bool
  | [] => true
  | ev :: evs => pulseEventOk t w ev && pulseTimingOk t (watchEvent t w ev) evs

/-- Settle delay (R127): at least `T_SETTLE` after the second latch of a byte, and with `WRITE4_SETTLE` after the one
latch of a nibble transfer, before a line moves, and within the trace even where none moves after it (log entry 24). -/
def settleOk (c : Config PinId) (ts : List Transfer) : Bool :=
  ts.all fun t =>
    if t.nibbles.length = 2 ∨ (t.nibbles.length = 1 ∧ c.switches.write4Settle = true) then
      decide (c.timing.tSettle ≤ t.settleAfter)
    else true

/-- Is this transfer the command byte 0x01 (30_encoding R67)? -/
def isClearTransfer (t : Transfer) : Bool := decide (t.rs = false ∧ t.nibbles = [0x0, 0x1])

/-- Clear wait (R129): at least `T_CLEAR` between a clear command and the next latch. -/
def clearGapOk (c : Config PinId) : List Transfer → Bool
  | [] => true
  | [_] => true
  | t :: t' :: ts =>
    (!isClearTransfer t || decide (c.timing.tClear ≤ t'.gapBefore)) && clearGapOk c (t' :: ts)

/-- The settle wait inside `write4Bits` (40 R78). -/
def nibbleSettle (c : Config PinId) : Nat := if c.switches.write4Settle then c.timing.tSettle else 0

/-- Initialization waits (R128): after the first single-nibble transfer of a row of them `T_INIT_LONG`, after each
further one `T_INIT_SHORT`, in addition to the settle wait, before the next latch. `first` says that the next
single-nibble transfer begins a row. -/
def initGapOk (c : Config PinId) (first : Bool) : List Transfer → Bool
  | [] => true
  | [_] => true
  | t :: t' :: ts =>
    if t.nibbles.length = 1 then
      decide ((if first then c.timing.tInitLong else c.timing.tInitShort) + nibbleSettle c ≤ t'.gapBefore) &&
        initGapOk c false (t' :: ts)
    else initGapOk c true (t' :: ts)

end Sys2Proof.Machine
end

