-- ==== Sys2Proof/Machine/Render.lean ====
section
/-! DEFINITION. The two transports' renderings of a trace: GPIO calls (30_encoding R73) and I2C bus writes (R74). -/

namespace Sys2Proof.Machine

/-- What the GPIO variant asks of the pin library (30_encoding R73). -/
inductive GpioCall (PinId : Type := Nat) where
  | acquire (pins : Pins PinId)
  | release (pins : Pins PinId)
  | set (pin : PinId) (v : Bool)
  | delay (ns : Nat)
  deriving DecidableEq, Repr

variable {PinId : Type}

/-- `CFG.PIN_p` (10_state R19). -/
def pinOf (pins : Pins PinId) : Line → PinId
  | .rs => pins.rs
  | .e => pins.e
  | .d4 => pins.d4
  | .d5 => pins.d5
  | .d6 => pins.d6
  | .d7 => pins.d7

/-- One event on the GPIO transport (30_encoding R73); `BL` is never emitted there. -/
def gpioOfEvent (t : Timing) (pins : Pins PinId) : Event → List (GpioCall PinId)
  | .acq => [.acquire pins]
  | .rel => [.release pins]
  | .low => [Line.rs, .e, .d4, .d5, .d6, .d7].map fun p => .set (pinOf pins p) false
  | .pin p v => [.set (pinOf pins p) v]
  | .bl _ => []
  | .wait d => [.delay (duration t d)]

/-- The GPIO rendering of a trace (30_encoding R73). -/
def gpioCalls (t : Timing) (pins : Pins PinId) (evs : List Event) : List (GpioCall PinId) :=
  evs.flatMap (gpioOfEvent t pins)

/-- What the I2C variant asks of the bus library (30_encoding R74). -/
inductive BusCall where
  | acquire
  | release
  | write (addr : BitVec 7) (byte : Byte)
  | delay (ns : Nat)
  deriving DecidableEq, Repr

/-- The shadow byte D7 D6 D5 D4 BL E 0 RS, bit 7 down to bit 0 (30_encoding R74). -/
def shadowByte (ls : Lines) (backlight : Bool) : Byte :=
  nibbleOn ls ++
    (BitVec.ofBool backlight ++ BitVec.ofBool (levelBit ls.e) ++ (0#1 ++ BitVec.ofBool (levelBit ls.rs)))

/-- The backlight after an event, as the expander shows it. -/
def lightAfter (light : Bool) : Event → Bool
  | .bl v => v
  | .acq => light
  | .rel => light
  | .low => light
  | .pin _ _ => light
  | .wait _ => light

/-- The default I2C rendering of a trace (30_encoding R74): after every `PIN`, `LOW` or `BL` one write of the shadow
byte; from the lines and the backlight as they stand before the trace. -/
def expanderCalls (t : Timing) (addr : BitVec 7) (ls : Lines) (light : Bool) : List Event → List BusCall
  | [] => []
  | ev :: evs =>
    let ls' := applyEvent ls ev
    let light' := lightAfter light ev
    let here : List BusCall :=
      match ev with
      | .acq => [.acquire]
      | .rel => [.release]
      | .wait d => [.delay (duration t d)]
      | .low => [.write addr (shadowByte ls' light')]
      | .pin _ _ => [.write addr (shadowByte ls' light')]
      | .bl _ => [.write addr (shadowByte ls' light')]
    here ++ expanderCalls t addr ls' light' evs

/-- The byte a bus call writes, if it is a write. -/
def byteOfCall : BusCall → Option Byte
  | .write _ b => some b
  | .acquire => none
  | .release => none
  | .delay _ => none

/-- The bytes written to the bus. -/
def busBytes (calls : List BusCall) : List Byte := calls.filterMap byteOfCall

/-- The waits before each latch of a trace, since the latch before it or the start (30_encoding R74). -/
def latchGaps (t : Timing) (ls : Lines) (since : Nat) : List Event → List Nat
  | [] => []
  | ev :: evs =>
    match latchAt ls ev with
    | some _ => since :: latchGaps t (applyEvent ls ev) 0 evs
    | none => latchGaps t (applyEvent ls ev) (since + waitOf t ev) evs

/-- The conformance criterion of the I2C variant (30_encoding R74): the same latches as the canonical trace, and before
each at least the canonical trace's waits since the one before. -/
def conformsTo (t : Timing) (ls : Lines) (canonical rendered : List Event) : Bool :=
  decide (latchesFrom ls rendered = latchesFrom ls canonical) &&
    decide (List.Forall₂ (· ≤ ·) (latchGaps t ls 0 canonical).tail (latchGaps t ls 0 rendered).tail)

/-- `I2C_RENDER` applied to a trace (30_encoding R74): the default layout, or another one, whose bytes are a free
value (log entry 9). -/
def i2cBytes (c : Config PinId) (addr : BitVec 7) (ls : Lines) (light : Bool) (evs : List Event) : List Byte :=
  match c.switches.i2cRender with
  | .expander => busBytes (expanderCalls c.timing addr ls light evs)
  | .custom id => Config.freeBusBytes id evs

/-- The calls the block has made on the pin library since construction; none in the I2C variant. -/
def State.gpioCalls (s : State PinId) : List (GpioCall PinId) :=
  match s.cfg.transport with
  | .gpio pins => Sys2Proof.Machine.gpioCalls s.cfg.timing pins s.trace
  | .i2c _ => []

/-- The calls the block has made on the bus library since construction, in the default layout, to the address its
configuration gives (10_state R20, 30_encoding R74); none in the GPIO variant. -/
def State.expanderCalls (s : State PinId) : List BusCall :=
  match s.cfg.transport with
  | .gpio _ => []
  | .i2c addr => Sys2Proof.Machine.expanderCalls s.cfg.timing addr Lines.released false s.trace

/-- The bytes the block has written to the bus since construction; none in the GPIO variant. -/
def State.i2cBytes (s : State PinId) : List Byte :=
  match s.cfg.transport with
  | .gpio _ => []
  | .i2c addr => Sys2Proof.Machine.i2cBytes s.cfg addr Lines.released false s.trace

end Sys2Proof.Machine
end

