-- ==== Sys2Proof/Machine/RequestText.lean ====
section
/-! DEFINITION. The written form of requests (30_encoding R75): signature names, decimal or 0x integers, texts in
double quotes with the escapes n and xHH; and the pseudo-request DisplayLines, read as its expansion (42 R93). -/

namespace Sys2Proof.Machine

/-- The value of a digit in a base up to 16. -/
def digitOf (base : Nat) (c : Char) : Option Nat :=
  let v :=
    if '0' ≤ c ∧ c ≤ '9' then some (c.toNat - '0'.toNat)
    else if 'a' ≤ c ∧ c ≤ 'f' then some (c.toNat - 'a'.toNat + 10)
    else if 'A' ≤ c ∧ c ≤ 'F' then some (c.toNat - 'A'.toNat + 10)
    else none
  match v with
  | some d => if d < base then some d else none
  | none => none

/-- The digits of a number, after at least one; the value and the rest. -/
def digits (base : Nat) : Nat → List Char → Nat × List Char
  | acc, [] => (acc, [])
  | acc, c :: cs =>
    match digitOf base c with
    | some d => digits base (acc * base + d) cs
    | none => (acc, c :: cs)

/-- A number in a base: at least one digit. -/
def numberIn (base : Nat) : List Char → Option (Nat × List Char)
  | [] => none
  | c :: cs =>
    match digitOf base c with
    | some d => some (digits base d cs)
    | none => none

/-- A decimal or 0x hexadecimal natural number. -/
def natText : List Char → Option (Nat × List Char)
  | '0' :: 'x' :: cs => numberIn 16 cs
  | cs => numberIn 10 cs

/-- An integer, perhaps negative. -/
def intText : List Char → Option (Int × List Char)
  | '-' :: cs => (natText cs).map fun r => (-(r.1 : Int), r.2)
  | cs => (natText cs).map fun r => ((r.1 : Int), r.2)

/-- The fixed characters `w`, and what follows them. -/
def expect : List Char → List Char → Option (List Char)
  | [], cs => some cs
  | _ :: _, [] => none
  | w :: ws, c :: cs => if w = c then expect ws cs else none

/-- What follows any number of spaces. -/
def skipSpaces : List Char → List Char
  | ' ' :: cs => skipSpaces cs
  | cs => cs

/-- A comma and the spaces after it, any number of them or none: the spec writes both `[0x00,0x0A]` and `[<b0>, <b1>]`
(log entry 20). -/
def comma : List Char → Option (List Char)
  | ',' :: cs => some (skipSpaces cs)
  | _ => none

/-- The bytes of a text up to its closing quote, and what follows it (30_encoding R75). -/
def textBody : List Char → Option (Text × List Char)
  | [] => none
  | '"' :: cs => some ([], cs)
  | '\\' :: 'n' :: cs => (textBody cs).map fun r => (0x0A :: r.1, r.2)
  | '\\' :: 'x' :: h :: l :: cs =>
    match digitOf 16 h, digitOf 16 l with
    | some a, some b => (textBody cs).map fun r => (BitVec.ofNat 8 (a * 16 + b) :: r.1, r.2)
    | some _, none => none
    | none, some _ => none
    | none, none => none
  | c :: cs =>
    if ' ' ≤ c ∧ c ≤ '~' ∧ c ≠ '\\' then (textBody cs).map fun r => (BitVec.ofNat 8 c.toNat :: r.1, r.2) else none

/-- A natural number below 256, as a byte. -/
def byteText (cs : List Char) : Option (Byte × List Char) :=
  match natText cs with
  | some (n, rest) => if n < 256 then some (BitVec.ofNat 8 n, rest) else none
  | none => none

/-- Further bytes of a list after its first, up to the closing bracket; `fuel` bounds their number. -/
def byteListTail : Nat → List Char → Option (Text × List Char)
  | 0, _ => none
  | fuel + 1, cs =>
    match cs with
    | ']' :: rest => some ([], rest)
    | _ =>
      match (comma cs).bind byteText with
      | some (b, rest') => (byteListTail fuel rest').map fun r => (b :: r.1, r.2)
      | none => none

/-- A list of bytes in brackets, the opening one already read. -/
def byteList (cs : List Char) : Option (Text × List Char) :=
  match cs with
  | ']' :: rest => some ([], rest)
  | _ =>
    match byteText cs with
    | some (b, rest) => (byteListTail rest.length rest).map fun r => (b :: r.1, r.2)
    | none => none

/-- The closing parenthesis, and nothing after it. -/
def closing {α : Type} (v : α) (cs : List Char) : Option α := if cs = [')'] then some v else none

/-- `Display(line, text)` after its opening parenthesis. -/
def displayText (cs : List Char) : Option Request :=
  match intText cs with
  | none => none
  | some (line, rest) =>
    match (comma rest).bind (expect ['"']) with
    | none => none
    | some rest' =>
      match textBody rest' with
      | none => none
      | some (t, rest'') => closing { op := 0x5, operands := .lineText (.int line) t } rest''

/-- `SetChar(position, definition)` after its opening parenthesis. -/
def setCharText (cs : List Char) : Option Request :=
  match byteText cs with
  | none => none
  | some (position, rest) =>
    match (comma rest).bind (expect ['[']) with
    | none => none
    | some rest' =>
      match byteList rest' with
      | none => none
      | some (t, rest'') => closing { op := 0x6, operands := .glyph position t } rest''

/-- `DisplayLines(text)` after its opening parenthesis: the `Display` requests it expands to (42 R93). -/
def displayLinesText (cs : List Char) : Option (List Request) :=
  match expect ['"'] cs with
  | none => none
  | some rest =>
    match textBody rest with
    | none => none
    | some (t, rest') => closing (displayLines t) rest'

/-- The requests without operands and their numbers (30_encoding R53). -/
def bareNames : List (List Char × BitVec 4) :=
  [("Open()".toList, 0x1), ("Close()".toList, 0x2), ("Reset()".toList, 0x3), ("Clear()".toList, 0x4),
   ("ToggleBacklight()".toList, 0x7), ("Active()".toList, 0x8)]

/-- The requests that one written request stands for (30_encoding R75); none where it is not in the notation. -/
def parseRequests (cs : List Char) : Option (List Request) :=
  match bareNames.find? fun n => n.1 = cs with
  | some n => some [{ op := n.2, operands := .none }]
  | none =>
    match expect "Display(".toList cs with
    | some rest => (displayText rest).map fun r => [r]
    | none =>
      match expect "SetChar(".toList cs with
      | some rest => (setCharText rest).map fun r => [r]
      | none => (expect "DisplayLines(".toList cs).bind displayLinesText

end Sys2Proof.Machine
end

