-- ==== Sys2Proof/Safety.lean ====
section
/-! DEFINITION. What claims mean by a good state and a safe run: the invariants of 10_state R30 and R32, the timing
hazards of 70 R127 to R130 on a trace, a step that stops nothing, and the duties of the host (70 R124 to R126). -/

namespace Sys2Proof.Safety

open Sys2Proof.Machine

/-- Every entry of the cache is `None` or a text of exactly W bytes, and there are L entries (10_state R24, R32). -/
def CacheShaped (s : State) : Prop :=
  s.cache.length = s.cfg.geometry.lines ∧
    ∀ t : Text, some t ∈ s.cache → t.length = s.cfg.geometry.width

/-- The lines are where the trace has driven them since construction (10_state R25). -/
def LinesFollowTrace (s : State) : Prop := s.lines = applyEvents Lines.released s.trace

/-- No line is `Z` (10_state R30). -/
def AllDriven (ls : Machine.Lines) : Prop :=
  ls.rs ≠ .z ∧ ls.e ≠ .z ∧ ls.d4 ≠ .z ∧ ls.d5 ≠ .z ∧ ls.d6 ≠ .z ∧ ls.d7 ≠ .z

/-- `active` holds exactly when the transport is held, and then no line is `Z` and E is low (10_state R30, 40 R77). -/
def HeldWhenActive (s : State) : Prop :=
  (s.active = true ↔ transportHeld s.trace = true) ∧
    (s.active = true → AllDriven s.lines ∧ s.lines.e = .low)

/-- The backlight is off while the block is inactive, and always in the GPIO variant (10_state R23). -/
def BacklightSane (s : State) : Prop :=
  (s.active = false → s.backlight = false) ∧ (s.isI2c = false → s.backlight = false)

/-- The invariant of the block: a well-formed configuration (10_state R21) and the four above. -/
structure Inv (s : State) : Prop where
  cfg : s.cfg.wf = true
  cache : CacheShaped s
  lines : LinesFollowTrace s
  held : HeldWhenActive s
  backlight : BacklightSane s

/-- A run of events, from these lines, keeps the hazards of 70 R127 to R130. -/
def KeepsHazards (c : Config) (ls : Machine.Lines) (evs : List Event) : Prop :=
  pulseTimingOk c.timing (PulseWatch.start ls) evs = true ∧
    settleOk c (transfersFrom c.timing ls evs) = true ∧
    clearGapOk c (transfersFrom c.timing ls evs) = true ∧
    initGapOk c true (transfersFrom c.timing ls evs) = true

/-- A step that does not stop the machine. -/
def Goes (s : State) : Prop := ∃ t, step s = .next t

/-- What the host sees to outside the block: the time the controller has been powered when `Open` is requested, its
R/W line at "write", and nothing else driving it (70 R124 to R126). -/
structure HostSide where
  poweredFor : Nat
  rwLow : Bool
  exclusive : Bool
  deriving DecidableEq, Repr

/-- The host keeps its duties, with the power-on wait `T_POWER_ON` (70 R124 to R126, 92 D30). The block checks none of
them: a claim about the controller assumes them (log entry 15). -/
def HostDuties (tPowerOn : Nat) (h : HostSide) : Bool := decide (tPowerOn ≤ h.poweredFor) && h.rwLow && h.exclusive

end Sys2Proof.Safety
end

