-- ==== Sys2Proof/Certificates/Slice0/Obligations.lean ====
section
/-! DEFINITION. The statements for the provers. `Sys2Proof.Spec` holds the spec's own tables and shorthand, written out
again from its text and vectors, so that a statement does not repeat a definition of the model. -/

namespace Sys2Proof.Spec

open Sys2Proof.Machine

/-- A response `OK` without a value (30_encoding R56). -/
def okay : Response := { code := .ok, value := none }

/-- The nine events of a pulse, from vectors V-F1 and V-F2: the four data levels in the order D4 to D7. -/
def pulseEvents (d4 d5 d6 d7 : Bool) : List Event :=
  [.pin .d4 d4, .pin .d5 d5, .pin .d6 d6, .pin .d7 d7, .wait .pulse, .pin .e true, .wait .pulse, .pin .e false,
   .wait .pulse]

/-- The 20 events of a byte, from vector V-F4: the mode line, bits 4 to 7, bits 0 to 3, one settle wait. -/
def byteEvents (rs : Bool) (v : Byte) : List Event :=
  [.pin .rs rs] ++ pulseEvents (v.getLsbD 4) (v.getLsbD 5) (v.getLsbD 6) (v.getLsbD 7) ++
    pulseEvents (v.getLsbD 0) (v.getLsbD 1) (v.getLsbD 2) (v.getLsbD 3) ++ [.wait .settle]

/-- The lines after a byte (40 R79): the mode, E low, the low nibble on the data lines. -/
def linesAfterByte (rs : Bool) (v : Byte) : Lines :=
  { rs := levelOf rs, e := .low, d4 := levelOf (v.getLsbD 0), d5 := levelOf (v.getLsbD 1),
    d6 := levelOf (v.getLsbD 2), d7 := levelOf (v.getLsbD 3) }

/-- The events of the two initialization nibbles, from vector V-F3; the last wait by `WRITE4_SETTLE`. -/
def nibble3Events (settle : Bool) : List Event :=
  [.pin .rs false] ++ pulseEvents true true false false ++ if settle then [.wait .settle] else []

@[inherit_doc nibble3Events]
def nibble2Events (settle : Bool) : List Event :=
  [.pin .rs false] ++ pulseEvents false true false false ++ if settle then [.wait .settle] else []

/-- The initialization sequence, from vector V-F6. -/
def initEvents (settle : Bool) : List Event :=
  nibble3Events settle ++ [.wait .initLong] ++ nibble3Events settle ++ [.wait .initShort] ++
  nibble3Events settle ++ [.wait .initShort] ++ nibble2Events settle ++ [.wait .initShort] ++
  byteEvents false 0x28 ++ byteEvents false 0x0C ++ byteEvents false 0x06 ++ byteEvents false 0x01 ++ [.wait .clear]

/-- The lines after the initialization sequence: 0, 0, 1, 0, 0, 0 (V-F6). -/
def linesAfterInit : Lines := { rs := .low, e := .low, d4 := .high, d5 := .low, d6 := .low, d7 := .low }

/-- The address bytes of a geometry, from vector V-G1. -/
def addressBytes : Geometry → List Byte
  | .g16x2 => [0x80, 0xC0]
  | .g16x4 => [0x80, 0xC0, 0x94, 0xD4]
  | .g20x4 => [0x80, 0xC0, 0x94, 0xD4]

/-- A text padded with spaces and cut to `w` bytes (42 R88). -/
def shownText (w : Nat) (text : Text) : Text := (text ++ List.replicate w 0x20).take w

/-- A line written: its address byte and then its characters (42 R90). -/
def lineEvents (a : Byte) (t : Text) : List Event := byteEvents false a ++ t.flatMap (byteEvents true)

/-- Every line written with spaces, in order (43 R98). -/
def blankEvents (g : Geometry) : List Event :=
  (addressBytes g).flatMap fun a => lineEvents a (List.replicate g.width 0x20)

/-- A cache full of one text. -/
def cacheOf (g : Geometry) (t : Option Text) : List (Option Text) := List.replicate g.lines t

/-- The instructions of the request port. -/
def isRequest : Instr → Bool
  | .reqOpen => true
  | .reqClose => true
  | .reqReset => true
  | .reqClear => true
  | .reqDisplay _ _ => true
  | .reqSetChar _ _ => true
  | .reqToggleBacklight => true
  | .reqActive => true
  | .outInitNibble3 => false
  | .outInitNibble2 => false
  | .outFunctionSet => false
  | .outDisplayOn => false
  | .outEntryMode => false
  | .outClearDisplay => false
  | .outDisplayOff => false
  | .outSetDdramAddr _ => false
  | .outSetCgramAddr _ => false
  | .outWriteData _ => false

/-- The requests that do nothing on an inactive block (43 R95); `SetChar` with a definition of eight bytes. -/
def isGated : Instr → Bool
  | .reqClose => true
  | .reqReset => true
  | .reqClear => true
  | .reqDisplay _ _ => true
  | .reqSetChar _ definition => decide (definition.length = 8)
  | .reqToggleBacklight => true
  | .reqOpen => false
  | .reqActive => false
  | .outInitNibble3 => false
  | .outInitNibble2 => false
  | .outFunctionSet => false
  | .outDisplayOn => false
  | .outEntryMode => false
  | .outClearDisplay => false
  | .outDisplayOff => false
  | .outSetDdramAddr _ => false
  | .outSetCgramAddr _ => false
  | .outWriteData _ => false

/-- Does the request run the initialization sequence from this state (40 R81)? -/
def runsInit (i : Instr) (s : State) : Bool :=
  (decide (i = .reqOpen) && !s.active && (drawAcquire s).1) || (decide (i = .reqReset) && s.active)

/-- Is the word a single nibble? -/
def isNibbleWord : Option PortItem → Bool
  | some (.nib4 _) => true
  | some (.byte8 _) => false
  | some (.request _) => false
  | none => false

/-- The single-nibble transfers of a trace. -/
def nibbleTransfers (ls : Lines) (evs : List Event) : Nat := (outputWords ls evs).countP isNibbleWord

/-- Does a GPIO call set a pin? -/
def isSetCall {PinId : Type} : GpioCall PinId → Bool
  | .set _ _ => true
  | .acquire _ => false
  | .release _ => false
  | .delay _ => false

/-- The GPIO calls of one event (30_encoding R73). -/
def pinCalls {PinId : Type} (tm : Timing) (pins : Pins PinId) : Event → List (GpioCall PinId)
  | .acq => [.acquire pins]
  | .rel => [.release pins]
  | .low =>
    [.set pins.rs false, .set pins.e false, .set pins.d4 false, .set pins.d5 false, .set pins.d6 false,
     .set pins.d7 false]
  | .pin .rs v => [.set pins.rs v]
  | .pin .e v => [.set pins.e v]
  | .pin .d4 v => [.set pins.d4 v]
  | .pin .d5 v => [.set pins.d5 v]
  | .pin .d6 v => [.set pins.d6 v]
  | .pin .d7 v => [.set pins.d7 v]
  | .bl _ => []
  | .wait d => [.delay (duration tm d)]

/-- The bus calls of one event in the default layout, `b` being the shadow byte after it (30_encoding R74). -/
def busCalls (tm : Timing) (addr : BitVec 7) (b : Byte) : Event → List BusCall
  | .acq => [.acquire]
  | .rel => [.release]
  | .low => [.write addr b]
  | .pin _ _ => [.write addr b]
  | .bl _ => [.write addr b]
  | .wait d => [.delay (duration tm d)]

/-- The level an event gives the line `p`, if it gives it one (30_encoding R58). -/
def driven (p : Line) : Event → Option Level
  | .low => some .low
  | .rel => some .z
  | .pin q v => if q = p then some (if v then .high else .low) else none
  | .acq => none
  | .bl _ => none
  | .wait _ => none

/-- Is the line `p` at 1 after these events: did the last that drove it drive it to 1, or did it stand there? -/
def lineIsHigh (p : Line) (ls : Lines) (evs : List Event) : Bool :=
  decide ((evs.filterMap (driven p)).getLastD (getLine p ls) = .high)

/-- The backlight an event asks for. -/
def lightAsked : Event → Option Bool
  | .bl v => some v
  | .acq => none
  | .rel => none
  | .low => none
  | .pin _ _ => none
  | .wait _ => none

/-- Is the backlight on after these events: was the last `BL` on, or was it on before? -/
def lightIsOn (light : Bool) (evs : List Event) : Bool := (evs.filterMap lightAsked).getLastD light

/-- Not a backlight event. -/
def notBacklight : Event → Bool
  | .bl _ => false
  | .acq => true
  | .rel => true
  | .low => true
  | .pin _ _ => true
  | .wait _ => true

/-- The output instructions a block of this geometry sends (30_encoding R72): set-DDRAM-address only with a line's
address byte, set-CGRAM-address only at a glyph's base. -/
def sends (g : Geometry) : Instr → Bool
  | .outInitNibble3 => true
  | .outInitNibble2 => true
  | .outFunctionSet => true
  | .outDisplayOn => true
  | .outEntryMode => true
  | .outClearDisplay => true
  | .outDisplayOff => true
  | .outSetDdramAddr a => decide (0b1#1 ++ a ∈ addressBytes g)
  | .outSetCgramAddr a => decide (a.toNat % 8 = 0)
  | .outWriteData _ => true
  | .reqOpen => false
  | .reqClose => false
  | .reqReset => false
  | .reqClear => false
  | .reqDisplay _ _ => false
  | .reqSetChar _ _ => false
  | .reqToggleBacklight => false
  | .reqActive => false

/-- Neither a `PIN` nor a `WAIT` event. -/
def isOther : Event → Bool
  | .pin _ _ => false
  | .wait _ => false
  | .acq => true
  | .rel => true
  | .low => true
  | .bl _ => true

/-- A run of events has these counts, these other events and this minimum wait (70 R135). -/
def Counts (t : Timing) (evs : List Event) (events pins waits : Nat) (other : List Event) (least : Nat) : Prop :=
  evs.length = events ∧ pinCount evs = pins ∧ waitCount evs = waits ∧ evs.filter isOther = other ∧ minWait t evs = least

/-- What an instruction added to the trace. -/
def added (s t : State) : List Event := t.trace.drop s.trace.length

/-- The minimum wait of one byte (70 R135). -/
def byteWait (t : Timing) : Nat := 6 * t.tPulse + t.tSettle

/-- The minimum wait of the initialization sequence (70 R135). -/
def initWait (t : Timing) : Nat := 36 * t.tPulse + 8 * t.tSettle + t.tInitLong + 3 * t.tInitShort + t.tClear

/-- Everything waiting at the port, and what is in service, decodes. -/
def PortDecodes (s : State) : Prop :=
  (∀ q ∈ s.requesters, ∀ r ∈ q, ∃ i, decode (.request r) = .ok i) ∧
    ∀ sv, s.service = some sv → ∃ i, decode sv.item = .ok i

end Sys2Proof.Spec

open Sys2Proof Sys2Proof.Machine

/-! ## Encoding -/

/-- Decode of encode gives the instruction back, for every instruction and every operand. -/
def Obligations.DecodeEncodeRoundTrip : Prop := ∀ i : Instr, decode (encode i) = .ok i

/-- On a hardware port `line` travels as a 32-bit two's-complement field and is sign-extended (R55): for operands that
fit, nothing is lost; and the field is read as its signed value. -/
def Obligations.PortFieldRoundTrip : Prop :=
  (∀ i : Instr, i.wf = true → decode (encodePort i) = .ok i) ∧
    ∀ (f : BitVec 32) (text : Text),
      decode (.request { op := 0x5, operands := .lineText (.field f) text }) =
        .ok (.reqDisplay (if f.toNat < 2 ^ 31 then (f.toNat : Int) else (f.toNat : Int) - 2 ^ 32) text)

/-- Where an output word decodes, the instruction encodes to that word and no other: no bit of it is dropped. -/
def Obligations.OutputWordsUnambiguous : Prop :=
  (∀ (v : BitVec 9) (i : Instr), decode (.byte8 v) = .ok i → encode i = .byte8 v) ∧
    ∀ (v : BitVec 5) (i : Instr), decode (.nib4 v) = .ok i → encode i = .nib4 v

/-- A few words of each family, written from the encodings of 30_encoding R53, R62, R64, R69 to R71. -/
def Obligations.SampleWordsDecode : Prop :=
  decode (.request { op := 0b0001, operands := .none }) = .ok .reqOpen ∧
    decode (.request { op := 0b0101, operands := .lineText (.field 0xFFFFFFFF) [0x5A] }) =
      .ok (.reqDisplay (-1) [0x5A]) ∧
    decode (.request { op := 0b0110, operands := .glyph 0x01 [0x1F] }) = .ok (.reqSetChar 0x01 [0x1F]) ∧
    decode (.nib4 0b00011) = .ok .outInitNibble3 ∧
    decode (.byte8 0b000101000) = .ok .outFunctionSet ∧
    decode (.byte8 0b011010100) = .ok (.outSetDdramAddr 0x54) ∧
    decode (.byte8 0b001001000) = .ok (.outSetCgramAddr 0x08) ∧
    decode (.byte8 0b101101111) = .ok (.outWriteData 0x6F)

/-- A request whose `op` is 0x0 or 0x9 to 0xF decodes to nothing, whatever its operands, and a step that serves it, or
that accepts it as the one request waiting, refuses it (R54, R107; the numbers are decision D2). -/
def Obligations.ReservedOpsRefused : Prop :=
  ∀ r : Request, (r.op = 0 ∨ 9 ≤ r.op.toNat) →
    decode (.request r) = .error (.reservedOp r.op) ∧
      (∀ (s : State) (sv : Service), s.service = some sv → sv.item = .request r → waitingActive s = [] →
        step s = .refused (.undecodable (.reservedOp r.op))) ∧
      ∀ (s : State) (k : Nat), s.service = none → waiting s = [k] → offered k s = some r →
        step s = .refused (.undecodable (.reservedOp r.op))

/-! ## The port and the step -/

/-- A step runs the decoded instruction: with an item in service that decodes to `i` and no `Active` waiting, it is `exec i` of the state with the item taken out of service. What a step is, is the model's choice, log entry 6. -/
def Obligations.StepRunsItemInService : Prop :=
  ∀ (s : State) (sv : Service) (i : Instr),
    s.service = some sv → waitingActive s = [] → decode sv.item = .ok i →
      step s = exec i { s with service := none }

/-- A quiescent block waits unchanged (70 R121, R136); that there is such a step is the model's choice, log entries 4
and 6. -/
def Obligations.QuiescentBlockWaits : Prop := ∀ s : State, quiescent s = true → step s = .next s

/-- A free port with one request waiting accepts it: `Active` is answered at once, any other request goes into service,
which is `busy`, and nothing else changes (R26, R52). The cut into acceptance and service is the model's choice, log
entry 6. -/
def Obligations.FreePortAccepts : Prop :=
  ∀ (s : State) (k : Nat) (r : Request) (i : Instr),
    s.service = none → waiting s = [k] → offered k s = some r → decode (.request r) = .ok i →
      (i = .reqActive → step s = exec .reqActive (takeOffer k s)) ∧
        (i ≠ .reqActive →
          ∃ t, step s = .next t ∧ t.busy = true ∧
            t = { s with
              requesters := s.requesters.modify k List.tail,
              service := some { requester := some k, item := .request r } })

/-- Whichever request the arbiter picks (R116, a free value, log entry 6), it is one that waits: a free port with
requests waiting, all of which decode, takes exactly one of them, an `Active` if one waits (R48); the others keep waiting
and nothing is emitted. -/
def Obligations.OneWaitingRequestIsAccepted : Prop :=
  ∀ s : State, s.service = none → waiting s ≠ [] →
    (∀ k ∈ waiting s, ∀ r, offered k s = some r → ∃ i, decode (.request r) = .ok i) →
      ∃ k ∈ waiting s, ∃ r t, offered k s = some r ∧ step s = .next t ∧
        t.requesters = s.requesters.modify k List.tail ∧ t.trace = s.trace ∧
        ((waitingActive s = [] ∧ t.service = some { requester := some k, item := .request r } ∧
            t.responses = s.responses) ∨
          (decode (.request r) = .ok .reqActive ∧ t.service = none ∧
            t.responses = s.responses ++ [{ code := .ok, value := some s.active }]))

/-- `Active` never waits (R48, R103, R116, D35): where one waits, whatever is in service or waits beside it, the very next
step answers an `Active` with the flag the last completed request left, and touches nothing else of the block. Which of
several is a free value, and that an answer takes one step is the model's cut, log entry 6. -/
def Obligations.ActiveNeverWaits : Prop :=
  ∀ s : State, waitingActive s ≠ [] →
    ∃ k ∈ waitingActive s, ∃ d : Nat, offered k s = some { op := 0x8, operands := .none } ∧
      step s = .next { s with
        requesters := s.requesters.modify k List.tail, draws := d,
        responses := s.responses ++ [{ code := .ok, value := some s.active }] }

/-- No waiting request is dropped (R116, D40): a step leaves every requester's queue as it was, but for at most one
whose offer it takes; and the offer taken is in service after the step, or is an `Active` that the step answers. -/
def Obligations.WaitingRequestsNeverDropped : Prop :=
  ∀ s t : State, step s = .next t →
    t.requesters = s.requesters ∨
      ∃ k r, offered k s = some r ∧ t.requesters = s.requesters.modify k List.tail ∧
        (t.service = some { requester := some k, item := .request r } ∨
          (decode (.request r) = .ok .reqActive ∧
            t.responses = s.responses ++ [{ code := .ok, value := some s.active }]))

/-- Hosts that offer only requests of the port never stop the block: if everything waiting or in service decodes, the
step goes on, and so it stays (R107: only what has no meaning is refused; R117). -/
def Obligations.DecodablePortNeverStops : Prop :=
  ∀ s : State, Spec.PortDecodes s → ∃ t, step s = .next t ∧ Spec.PortDecodes t

/-- The block has no trap (R111): a step goes on or refuses what does not decode, and `exec` always goes on. -/
def Obligations.NothingFaults : Prop :=
  (∀ s : State, (∃ t, step s = .next t) ∨ ∃ why, step s = .refused (.undecodable why)) ∧
    ∀ (i : Instr) (s : State), ∃ t, exec i s = .next t

/-- Every request is answered with exactly one response (R52, R56). That an output pattern run as an instruction answers
none is the model's choice, log entry 12. -/
def Obligations.OneResponsePerRequest : Prop :=
  ∀ (i : Instr) (s t : State), exec i s = .next t →
    if Spec.isRequest i = true then ∃ r, t.responses = s.responses ++ [r] else t.responses = s.responses

/-- The output trace is a concatenation (R47): a step only appends to the trace and to the responses, and at most one
response. -/
def Obligations.TraceOnlyGrows : Prop :=
  ∀ s t : State, step s = .next t →
    ∃ evs rs, t.trace = s.trace ++ evs ∧ t.responses = s.responses ++ rs ∧ rs.length ≤ 1

/-! ## The requests -/

/-- `Open` (43 R96). Of an inactive block whose draw succeeds, be the answer supplied or free: acquire, lines low,
backlight in the I2C variant, cache emptied, initialization sequence, active (D15, D23); a supplied answer is the draw,
and is used up. Of an active block (D36): a no-op that answers OK and takes no draw. How answers are supplied is the
model's choice, log entry 5. -/
def Obligations.OpenInitializesInactiveBlock : Prop :=
  (∀ s : State, s.active = false → (drawAcquire s).1 = true →
    exec .reqOpen s = .next { s with
      active := true,
      backlight := if s.isI2c then s.cfg.switches.backlightAtOpen else s.backlight,
      cache := Spec.cacheOf s.cfg.geometry none,
      lines := Spec.linesAfterInit,
      trace := s.trace ++ ([.acq, .low] ++ (if s.isI2c then [.bl s.cfg.switches.backlightAtOpen] else []) ++
        Spec.initEvents s.cfg.switches.write4Settle),
      responses := s.responses ++ [Spec.okay],
      acquireAnswers := s.acquireAnswers.tail,
      draws := if s.acquireAnswers = [] then s.draws + 1 else s.draws }) ∧
  (∀ (s : State) (ok : Bool) (rest : List Bool), s.acquireAnswers = ok :: rest → (drawAcquire s).1 = ok) ∧
  ∀ s : State, s.active = true → exec .reqOpen s = .next { s with responses := s.responses ++ [Spec.okay] }

/-- Where the environment has supplied no answer, `Open` still completes, in one of its two ways: the answer is a free
value (R11, I10, log entry 5), and nothing is said of which. -/
def Obligations.OpenTakesEitherAnswer : Prop :=
  ∀ s : State, s.active = false → s.acquireAnswers = [] →
    ∃ t, exec .reqOpen s = .next t ∧ t.draws = s.draws + 1 ∧
      ((t.active = true ∧ t.cache = Spec.cacheOf s.cfg.geometry none ∧ t.lines = Spec.linesAfterInit ∧
          t.responses = s.responses ++ [Spec.okay]) ∨
        t = { s with
          draws := s.draws + 1,
          responses := s.responses ++ [{ code := .transportUnavailable, value := none }] })

/-- `TRANSPORT_UNAVAILABLE` (R105): raised only by `Open` on an inactive block whose draw is false, and always then; it
records nothing; one answer is drawn and no retry made; a later `Open` draws again. -/
def Obligations.TransportUnavailableOnlyFromOpen : Prop :=
  (∀ (i : Instr) (s t : State), exec i s = .next t →
    t.responses = s.responses ++ [{ code := .transportUnavailable, value := none }] →
      i = .reqOpen ∧ s.active = false ∧ (drawAcquire s).1 = false) ∧
  (∀ (s : State) (rest : List Bool), s.active = false → s.acquireAnswers = false :: rest →
    exec .reqOpen s = .next { s with
      acquireAnswers := rest,
      responses := s.responses ++ [{ code := .transportUnavailable, value := none }] }) ∧
  (∀ s : State, s.active = false → (drawAcquire s).1 = false →
    exec .reqOpen s = .next { (drawAcquire s).2 with
      responses := s.responses ++ [{ code := .transportUnavailable, value := none }] }) ∧
  ∀ (s t : State) (rest : List Bool), s.active = false → s.acquireAnswers = false :: true :: rest →
    exec .reqOpen s = .next t → ∃ u, exec .reqOpen t = .next u ∧ u.active = true

/-- The no-op policy (43 R95, R109; D20): on an inactive block every request but `Open` and `Active` answers OK, emits
nothing and writes no register; `SetChar` with a definition of eight bytes. -/
def Obligations.InactiveRequestsAreNoOps : Prop :=
  ∀ (i : Instr) (s : State), Spec.isGated i = true → s.active = false →
    exec i s = .next { s with responses := s.responses ++ [Spec.okay] }

/-- `Reset` of an active block re-runs the initialization sequence (43 R97), the cache kept or emptied by the switch. -/
def Obligations.ResetReinitializes : Prop :=
  ∀ s : State, s.active = true →
    exec .reqReset s = .next { s with
      cache := if s.cfg.switches.resetInvalidatesCache then Spec.cacheOf s.cfg.geometry none else s.cache,
      lines := Spec.linesAfterInit,
      trace := s.trace ++ Spec.initEvents s.cfg.switches.write4Settle,
      responses := s.responses ++ [Spec.okay] }

/-- The `Reset` request writes no register but the lines, and the cache if `RESET_INVALIDATES_CACHE` (R122). -/
def Obligations.ResetKeepsRegisters : Prop :=
  ∀ s : State, ∃ t, exec .reqReset s = .next t ∧ t.cfg = s.cfg ∧ t.active = s.active ∧ t.backlight = s.backlight ∧
    t.busy = s.busy ∧ (s.cfg.switches.resetInvalidatesCache = false → t.cache = s.cache) ∧
    (s.active = true → t.trace = s.trace ++ Spec.initEvents s.cfg.switches.write4Settle)

/-- `Clear` of an active block writes spaces to every line in order, whatever the cache holds, and fills the cache with
them (43 R98, R99; D18). -/
def Obligations.ClearBlanksEveryLine : Prop :=
  ∀ s : State, s.active = true →
    exec .reqClear s = .next { s with
      cache := Spec.cacheOf s.cfg.geometry (some (List.replicate s.cfg.geometry.width 0x20)),
      lines := Spec.linesAfterByte true 0x20,
      trace := s.trace ++ Spec.blankEvents s.cfg.geometry,
      responses := s.responses ++ [Spec.okay] }

/-- `Close` of an active block (43 R100; D15 to D18): every line blanked, clear, its wait by the switch, display off,
backlight off in the I2C variant, lines low, transport released, inactive. -/
def Obligations.CloseShutsDown : Prop :=
  ∀ s : State, s.active = true →
    exec .reqClose s = .next { s with
      active := false,
      backlight := if s.isI2c then false else s.backlight,
      cache := Spec.cacheOf s.cfg.geometry (some (List.replicate s.cfg.geometry.width 0x20)),
      lines := allLines .z,
      trace := s.trace ++ (Spec.blankEvents s.cfg.geometry ++ Spec.byteEvents false 0x01 ++
        (if s.cfg.switches.closeClearWait then [.wait .clear] else []) ++
        Spec.byteEvents false s.cfg.switches.displayOffCmd ++ (if s.isI2c then [.bl false] else []) ++ [.low, .rel]),
      responses := s.responses ++ [Spec.okay] }

/-- `Display` on a line in range whose entry is another text or none (42 R90, R92): the line's address byte, the W
characters in order, then the entry; no other entry, flag or line of the display is touched. -/
def Obligations.DisplayMissWritesLineThenCache : Prop :=
  ∀ (s : State) (i : Nat) (a : Byte) (text : Text), s.active = true →
    (Spec.addressBytes s.cfg.geometry)[i]? = some a →
    s.cache.getD i none ≠ some (Spec.shownText s.cfg.geometry.width text) →
      exec (.reqDisplay (i : Int) text) s = .next { s with
        cache := s.cache.set i (some (Spec.shownText s.cfg.geometry.width text)),
        lines := Spec.linesAfterByte true ((Spec.shownText s.cfg.geometry.width text).getLastD 0),
        trace := s.trace ++ Spec.lineEvents a (Spec.shownText s.cfg.geometry.width text),
        responses := s.responses ++ [Spec.okay] }

/-- A cache hit emits nothing, writes nothing and answers OK; an entry that is `None` is never a hit (42 R91; the latter
by decision D37). -/
def Obligations.DisplayHitIsSilent : Prop :=
  (∀ (s : State) (i : Nat) (text : Text), s.active = true → i < s.cfg.geometry.lines →
    s.cache.getD i none = some (Spec.shownText s.cfg.geometry.width text) →
      exec (.reqDisplay (i : Int) text) s = .next { s with responses := s.responses ++ [Spec.okay] }) ∧
  ∀ (s : State) (i : Nat) (text : Text), s.active = true → i < s.cfg.geometry.lines →
    s.cache.getD i none = none →
      ∃ t, exec (.reqDisplay (i : Int) text) s = .next t ∧
        t.trace.length = s.trace.length + 20 * (1 + s.cfg.geometry.width)

/-- A line is in range exactly when 0 ≤ line < L; out of range, negative or too large, `Display` is a no-op (42 R89). -/
def Obligations.OutOfRangeLineIsIgnored : Prop :=
  (∀ (g : Geometry) (line : Int), inRange g line = true ↔ (0 ≤ line ∧ line < (g.lines : Int))) ∧
    ∀ (s : State) (line : Int) (text : Text), (line < 0 ∨ (s.cfg.geometry.lines : Int) ≤ line) →
      exec (.reqDisplay line text) s = .next { s with responses := s.responses ++ [Spec.okay] }

/-- Two consecutive `Display` requests on one line with the same normalized text: the second writes nothing. The cache
has its L entries (an invariant, stated below). -/
def Obligations.SecondDisplayIsSilent : Prop :=
  ∀ (s t : State) (line : Int) (text text' : Text), s.cache.length = s.cfg.geometry.lines →
    Spec.shownText s.cfg.geometry.width text = Spec.shownText s.cfg.geometry.width text' →
    exec (.reqDisplay line text) s = .next t →
      exec (.reqDisplay line text') t = .next { t with responses := t.responses ++ [Spec.okay] }

/-- After a `Clear`, and a `Close` followed by an `Open` that succeeds, what the cache promises (20_memory R51): after
`Clear` an empty text on any line is a hit; after the reopening no text is. -/
def Obligations.ClearFillsAndReopenEmptiesCache : Prop :=
  (∀ (s t : State) (i : Nat), s.active = true → i < s.cfg.geometry.lines → exec .reqClear s = .next t →
    exec (.reqDisplay (i : Int) []) t = .next { t with responses := t.responses ++ [Spec.okay] }) ∧
  ∀ (s t u : State) (rest : List Bool) (i : Nat) (text : Text), s.active = true →
    s.acquireAnswers = true :: rest → i < s.cfg.geometry.lines →
    exec .reqClose s = .next t → exec .reqOpen t = .next u →
      u.active = true ∧ u.cache = Spec.cacheOf s.cfg.geometry none ∧
        ∃ v, exec (.reqDisplay (i : Int) text) u = .next v ∧
          v.trace.length = u.trace.length + 20 * (1 + s.cfg.geometry.width)

/-- `SetChar` with eight bytes on an active block (43 R101; D22): the command byte (0x40 + position*8) mod 256, the
eight bytes in order; the cache stays. -/
def Obligations.SetCharWritesGlyph : Prop :=
  ∀ (s : State) (position : Byte) (definition : Text), s.active = true → definition.length = 8 →
    exec (.reqSetChar position definition) s = .next { s with
      lines := Spec.linesAfterByte true (definition.getLastD 0),
      trace := s.trace ++ Spec.lineEvents (BitVec.ofNat 8 (0x40 + position.toNat * 8)) definition,
      responses := s.responses ++ [Spec.okay] }

/-- `INVALID_GLYPH_DEFINITION` (R106): raised exactly by `SetChar` with a definition that is not eight bytes; no event is
emitted and no register written. That it comes on an inactive block too is the order of checks of 43 R101, which the spec
marks as its own decision D21. -/
def Obligations.InvalidGlyphOnlyFromSetChar : Prop :=
  (∀ (i : Instr) (s t : State), exec i s = .next t →
    (t.responses = s.responses ++ [{ code := .invalidGlyphDefinition, value := none }] ↔
      ∃ position definition, i = .reqSetChar position definition ∧ definition.length ≠ 8)) ∧
  ∀ (s : State) (position : Byte) (definition : Text), definition.length ≠ 8 →
    exec (.reqSetChar position definition) s = .next { s with
      responses := s.responses ++ [{ code := .invalidGlyphDefinition, value := none }] }

/-- The command byte of `SetChar` depends only on position mod 32, and is what the table of 70 R133 says: positions 0 to
7 a set-CGRAM-address at 8 times the position, 8 to 15 and 16 to 23 set-DDRAM-addresses from 0x00 and from 0x40 (how
the others are read is log entry 22). -/
def Obligations.GlyphCommandByPosition : Prop :=
  ∀ p : Byte,
    glyphCommand p = BitVec.ofNat 8 (0x40 + p.toNat % 32 * 8) ∧
      (p.toNat % 32 < 8 →
        decode (.byte8 (0#1 ++ glyphCommand p)) = .ok (.outSetCgramAddr (BitVec.ofNat 6 (p.toNat % 32 * 8)))) ∧
      (8 ≤ p.toNat % 32 → p.toNat % 32 < 24 →
        decode (.byte8 (0#1 ++ glyphCommand p)) =
          .ok (.outSetDdramAddr (BitVec.ofNat 7 ((p.toNat % 32 - 8) * 8)))) ∧
      (24 ≤ p.toNat % 32 → glyphCommand p = BitVec.ofNat 8 ((p.toNat % 32 - 24) * 8))

/-- `ToggleBacklight` (43 R102): in the I2C variant an active block inverts the flag and shows it; in the GPIO variant it
is a no-op that answers OK. Two toggles restore the flag, whatever the variant and the state. -/
def Obligations.ToggleBacklightInverts : Prop :=
  (∀ s : State, s.isI2c = true → s.active = true →
    exec .reqToggleBacklight s = .next { s with
      backlight := !s.backlight, trace := s.trace ++ [.bl (!s.backlight)], responses := s.responses ++ [Spec.okay] }) ∧
  (∀ s : State, s.isI2c = false →
    exec .reqToggleBacklight s = .next { s with responses := s.responses ++ [Spec.okay] }) ∧
  ∀ s t u : State, exec .reqToggleBacklight s = .next t → exec .reqToggleBacklight t = .next u →
    u.backlight = s.backlight ∧ u.lines = s.lines ∧ u.cache = s.cache

/-- `Active` answers the flag in every state and changes nothing (43 R103). -/
def Obligations.ActiveAnswersFlag : Prop :=
  ∀ s : State,
    exec .reqActive s = .next { s with responses := s.responses ++ [{ code := .ok, value := some s.active }] }

/-- An error response is precise (R111; D31): no event, no register written. -/
def Obligations.ErrorResponsesArePrecise : Prop :=
  ∀ (i : Instr) (s t : State) (r : Response), exec i s = .next t → t.responses = s.responses ++ [r] → r.code ≠ .ok →
    t.trace = s.trace ∧ t.active = s.active ∧ t.backlight = s.backlight ∧ t.cache = s.cache ∧ t.lines = s.lines ∧
      t.cfg = s.cfg ∧ t.service = s.service

/-! ## The output patterns -/

/-- `INIT_NIBBLE_3` and `INIT_NIBBLE_2` (30_encoding R62, R63): the single-nibble call in command mode, and nothing
but the lines and the trace changes. That a pattern runs as an instruction is the model's choice, log entry 12. -/
def Obligations.InitNibblesAreSent : Prop :=
  (∀ s : State, exec .outInitNibble3 s = .next { s with
    lines := Spec.linesAfterByte false 0x03, trace := s.trace ++ Spec.nibble3Events s.cfg.switches.write4Settle }) ∧
  ∀ s : State, exec .outInitNibble2 s = .next { s with
    lines := Spec.linesAfterByte false 0x02, trace := s.trace ++ Spec.nibble2Events s.cfg.switches.write4Settle }

/-- The five fixed commands (30_encoding R64 to R68), `CLEAR_DISPLAY` followed by its wait (the model's
inference, log entry 13). That a pattern runs as an instruction is the model's choice, log entry 12. -/
def Obligations.FixedCommandsAreSent : Prop :=
  ∀ s : State,
    exec .outFunctionSet s = .next { s with
      lines := Spec.linesAfterByte false 0x28, trace := s.trace ++ Spec.byteEvents false 0x28 } ∧
    exec .outDisplayOn s = .next { s with
      lines := Spec.linesAfterByte false 0x0C, trace := s.trace ++ Spec.byteEvents false 0x0C } ∧
    exec .outEntryMode s = .next { s with
      lines := Spec.linesAfterByte false 0x06, trace := s.trace ++ Spec.byteEvents false 0x06 } ∧
    exec .outClearDisplay s = .next { s with
      lines := Spec.linesAfterByte false 0x01,
      trace := s.trace ++ (Spec.byteEvents false 0x01 ++ [.wait .clear]) } ∧
    exec .outDisplayOff s = .next { s with
      lines := Spec.linesAfterByte false s.cfg.switches.displayOffCmd,
      trace := s.trace ++ Spec.byteEvents false s.cfg.switches.displayOffCmd }

/-- Set-DDRAM-address, set-CGRAM-address and data (30_encoding R69 to R71). That a pattern runs as an instruction is the
model's choice, log entry 12. -/
def Obligations.AddressAndDataAreSent : Prop :=
  ∀ s : State,
    (∀ a : BitVec 7, exec (.outSetDdramAddr a) s = .next { s with
      lines := Spec.linesAfterByte false (BitVec.ofNat 8 (0x80 + a.toNat)),
      trace := s.trace ++ Spec.byteEvents false (BitVec.ofNat 8 (0x80 + a.toNat)) }) ∧
    (∀ a : BitVec 6, exec (.outSetCgramAddr a) s = .next { s with
      lines := Spec.linesAfterByte false (BitVec.ofNat 8 (0x40 + a.toNat)),
      trace := s.trace ++ Spec.byteEvents false (BitVec.ofNat 8 (0x40 + a.toNat)) }) ∧
    ∀ d : Byte, exec (.outWriteData d) s = .next { s with
      lines := Spec.linesAfterByte true d, trace := s.trace ++ Spec.byteEvents true d }

/-! ## The framer -/

/-- A byte is sent as two nibbles, high nibble first, each latched by one enable pulse, from whatever lines and in
either mode, and the two assemble to the byte; a single-nibble call is one latch of the low nibble (R37, R42). -/
def Obligations.ByteIsTwoNibblesHighFirst : Prop :=
  (∀ (ls : Lines) (v : Byte) (rs : Bool),
    latchesFrom ls (writeByte v rs) = [{ rs := rs, nibble := hiNibble v }, { rs := rs, nibble := loNibble v }]) ∧
  (∀ v : Byte, hiNibble v ++ loNibble v = v) ∧
  ∀ (c : Config) (ls : Lines) (v : Byte) (rs : Bool),
    latchesFrom ls (write4Bits c v rs) = [{ rs := rs, nibble := loNibble v }]

/-- The initialization sequence (R80): its events in order, its twelve latches, the lines it leaves, its counts. -/
def Obligations.InitSequence : Prop :=
  ∀ c : Config,
    initSeq c = Spec.initEvents c.switches.write4Settle ∧
      (∀ ls : Lines, latchesFrom ls (initSeq c) =
        ([0x3, 0x3, 0x3, 0x2, 0x2, 0x8, 0x0, 0xC, 0x0, 0x6, 0x0, 0x1].map fun n : Nibble =>
          ({ rs := false, nibble := n } : Latch))) ∧
      (∀ ls : Lines, applyEvents ls (initSeq c) = Spec.linesAfterInit) ∧
      (c.switches.write4Settle = true →
        (initSeq c).length = 129 ∧ pinCount (initSeq c) = 80 ∧ waitCount (initSeq c) = 49)

/-- The sequence runs exactly once in a successful `Open` and in a `Reset` of an active block, and in no other request;
single-nibble transfers come from nowhere else (R81). How transfers are read off a trace (R60, R61, R78, R79) is the
model's inference, log entry 21. -/
def Obligations.InitSequenceOncePerOpenOrReset : Prop :=
  ∀ (i : Instr) (s t : State) (evs : List Event), Spec.isRequest i = true → exec i s = .next t →
    t.trace = s.trace ++ evs →
      Spec.nibbleTransfers s.lines evs = (if Spec.runsInit i s then 4 else 0) ∧
        (Spec.runsInit i s = true → ∃ before,
          evs = before ++ Spec.initEvents s.cfg.switches.write4Settle ∧ Spec.nibbleTransfers s.lines before = 0)

/-- Every transfer a request sends is a row of the output table that the block sends, and no other controller byte
(30_encoding R72, 00_scope R2), but for two: the `DISPLAY_OFF_CMD` of a `Close` where that switch is not at its default
(log entry 10), and the address command of a `SetChar` whose position is 8 or more mod 32, which is the byte of 43 R101 all
the same (70 R133, 90_conflicts C8, log entry 22). How transfers are read off a trace is the model's inference, log entry
21. -/
def Obligations.RequestsSendOnlyListedWords : Prop :=
  ∀ (i : Instr) (s t : State) (evs : List Event), Spec.isRequest i = true →
    exec i s = .next t → t.trace = s.trace ++ evs →
      ∀ w ∈ outputWords s.lines evs,
        (∃ o, w = some (encode o) ∧ Spec.sends s.cfg.geometry o = true) ∨
        (i = .reqClose ∧ s.cfg.switches.displayOffCmd ≠ 0x08 ∧
          w = some (.byte8 (0#1 ++ s.cfg.switches.displayOffCmd))) ∨
        ∃ position definition, i = .reqSetChar position definition ∧ 8 ≤ position.toNat % 32 ∧
          w = some (.byte8 (0#1 ++ BitVec.ofNat 8 (0x40 + position.toNat * 8)))

/-! ## Where the bytes go, hazards, time -/

/-- The cells a request writes, the controller's address advancing by 1 after each data byte (20_memory R35, R45; that
advance is general knowledge by the spec's own mark, log entry 14): a `Display` miss writes its W characters from the
line's start, `SetChar` at a position below 8 its rows from 8 times the position. How transfers are read off a trace is
log entry 21. -/
def Obligations.BytesLandInTheirCells : Prop :=
  (∀ (s t : State) (i : Nat) (a : Byte) (text : Text) (evs : List Event), s.active = true →
    (Spec.addressBytes s.cfg.geometry)[i]? = some a →
    s.cache.getD i none ≠ some (Spec.shownText s.cfg.geometry.width text) →
    exec (.reqDisplay (i : Int) text) s = .next t → t.trace = s.trace ++ evs →
      addressedWrites s.lines evs = (Spec.shownText s.cfg.geometry.width text).mapIdx fun j b =>
        ({ space := .ddram, address := a.toNat - 0x80 + j, value := b } : CellWrite)) ∧
  ∀ (s t : State) (position : Byte) (definition : Text) (evs : List Event), s.active = true →
    position.toNat < 8 → definition.length = 8 →
    exec (.reqSetChar position definition) s = .next t → t.trace = s.trace ++ evs →
      addressedWrites s.lines evs = definition.mapIdx fun j b =>
        ({ space := .cgram, address := position.toNat * 8 + j, value := b } : CellWrite)

/-- What a request emits keeps the hazards R127, R128, R129 and R130, for every timing: from lines with E not high on an
active block (an invariant, stated below), and for `Close` with its clear wait on. How the checks read a trace is the
model's inference, log entry 21, and that to drive a line is to move it is its choice, log entry 24. -/
def Obligations.RequestsKeepHazards : Prop :=
  ∀ (i : Instr) (s t : State) (evs : List Event), Spec.isRequest i = true →
    (s.active = true → s.lines.e ≠ .high) → (i = .reqClose → s.cfg.switches.closeClearWait = true) →
    exec i s = .next t → t.trace = s.trace ++ evs → Safety.KeepsHazards s.cfg s.lines evs

/-- The table of event counts and minimum waits (R135), with its sums at the default durations. -/
def Obligations.EventCountsAndMinimumWaits : Prop :=
  (∀ (tm : Timing) (n : Nibble), Spec.Counts tm (pulse n) 9 6 3 [] (3 * tm.tPulse)) ∧
  (∀ (tm : Timing) (v : Byte) (rs : Bool), Spec.Counts tm (writeByte v rs) 20 13 7 [] (Spec.byteWait tm)) ∧
  (∀ (c : Config) (v : Byte) (rs : Bool), c.switches.write4Settle = true →
    Spec.Counts c.timing (write4Bits c v rs) 11 7 4 [] (3 * c.timing.tPulse + c.timing.tSettle) ∧
      Spec.Counts c.timing (initSeq c) 129 80 49 [] (Spec.initWait c.timing)) ∧
  (∀ (i : Instr) (s t : State), exec i s = .next t →
    s.cfg.switches.write4Settle = true → s.cfg.switches.closeClearWait = true →
    (i = .reqOpen → s.active = false → (drawAcquire s).1 = true →
      Spec.Counts s.cfg.timing (Spec.added s t) (if s.isI2c then 132 else 131) 80 49
        ([.acq, .low] ++ if s.isI2c then [.bl s.cfg.switches.backlightAtOpen] else []) (Spec.initWait s.cfg.timing)) ∧
    (i = .reqOpen → (s.active = true ∨ (drawAcquire s).1 = false) → Spec.added s t = []) ∧
    (i = .reqReset → s.active = true →
      Spec.Counts s.cfg.timing (Spec.added s t) 129 80 49 [] (Spec.initWait s.cfg.timing)) ∧
    (∀ line text, i = .reqDisplay line text →
      if s.active = true ∧ inRange s.cfg.geometry line = true ∧
          s.cache.getD line.toNat none ≠ some (Spec.shownText s.cfg.geometry.width text) then
        Spec.Counts s.cfg.timing (Spec.added s t) ((1 + s.cfg.geometry.width) * 20) ((1 + s.cfg.geometry.width) * 13)
          ((1 + s.cfg.geometry.width) * 7) [] ((1 + s.cfg.geometry.width) * Spec.byteWait s.cfg.timing)
      else Spec.added s t = []) ∧
    (i = .reqClear → s.active = true →
      Spec.Counts s.cfg.timing (Spec.added s t) (s.cfg.geometry.lines * (1 + s.cfg.geometry.width) * 20)
        (s.cfg.geometry.lines * (1 + s.cfg.geometry.width) * 13) (s.cfg.geometry.lines * (1 + s.cfg.geometry.width) * 7)
        [] (s.cfg.geometry.lines * (1 + s.cfg.geometry.width) * Spec.byteWait s.cfg.timing)) ∧
    (i = .reqClose → s.active = true →
      Spec.Counts s.cfg.timing (Spec.added s t)
        (s.cfg.geometry.lines * (1 + s.cfg.geometry.width) * 20 + if s.isI2c then 44 else 43)
        ((s.cfg.geometry.lines * (1 + s.cfg.geometry.width) + 2) * 13)
        ((s.cfg.geometry.lines * (1 + s.cfg.geometry.width) + 2) * 7 + 1)
        ((if s.isI2c then [.bl false] else []) ++ [.low, .rel])
        ((s.cfg.geometry.lines * (1 + s.cfg.geometry.width) + 2) * Spec.byteWait s.cfg.timing + s.cfg.timing.tClear)) ∧
    (∀ position definition, i = .reqSetChar position definition → s.active = true → definition.length = 8 →
      Spec.Counts s.cfg.timing (Spec.added s t) 180 117 63 [] (9 * Spec.byteWait s.cfg.timing)) ∧
    (i = .reqToggleBacklight → s.isI2c = true → s.active = true →
      Spec.Counts s.cfg.timing (Spec.added s t) 1 0 0 [.bl !s.backlight] 0) ∧
    (i = .reqActive → Spec.added s t = [])) ∧
  Spec.initWait Timing.default = 10956000 ∧ 17 * Spec.byteWait Timing.default = 1292000

/-! ## Geometry, construction, operands -/

/-- The line-address tables, as literal values (41 R83, R84): of a block constructed with (16,2), with (16,4) or with
(20,4), and never written after construction; with the addresses of the rules' examples. -/
def Obligations.LineAddressTables : Prop :=
  (∀ (r : RawConfig) (s : State), construct r = .next s →
    lineTable s.cfg.geometry = if (r.width, r.lines) = (16, 2) then [0x80, 0xC0] else [0x80, 0xC0, 0x94, 0xD4]) ∧
  (∀ (r : RawConfig) (s : State), construct r = .next s → (lineTable s.cfg.geometry).length = r.lines) ∧
  (∀ s t : State, step s = .next t → lineTable t.cfg.geometry = lineTable s.cfg.geometry) ∧
  lineTable .g16x2 = [0x80, 0xC0] ∧ lineTable .g16x4 = [0x80, 0xC0, 0x94, 0xD4] ∧
    lineTable .g20x4 = [0x80, 0xC0, 0x94, 0xD4] ∧ ddramStart .g16x2 1 = 0x40 ∧
    ddramStart .g20x4 2 = 0x14 ∧ ddramStart .g20x4 2 + Geometry.width .g20x4 = 0x27 + 1 ∧
    ddramStart .g20x4 3 = 0x54 ∧ ddramStart .g20x4 3 + Geometry.width .g20x4 = 0x67 + 1

/-- The cells of different lines never overlap, and stay within the 7-bit space (42 R90, V-G1). -/
def Obligations.LineRangesDisjoint : Prop :=
  ∀ (g : Geometry) (i j : Nat), i < g.lines → j < g.lines → i ≠ j →
    ddramStart g i + g.width ≤ 128 ∧
      (ddramStart g i + g.width ≤ ddramStart g j ∨ ddramStart g j + g.width ≤ ddramStart g i)

/-- A pair that is not (16,2), (16,4) or (20,4), (20,2) among them, is a construction-time error and no block exists
(41 R85), whatever the type of pin identifiers (R19). -/
def Obligations.UnsupportedGeometryRefused : Prop :=
  ∀ (PinId : Type) [DecidableEq PinId] (r : RawConfig PinId), (r.width, r.lines) ∉ [(16, 2), (16, 4), (20, 4)] →
    construct r = .refused (.unsupportedGeometry r.width r.lines)

/-- A well-formed configuration is constructed into the state of R33 (the values of D7, D15 and D23 among them); an
ill-formed one is refused (R21, R107, R108), whatever the type of pin identifiers (R19). The last three fields are the
model's own (log entries 4 to 6). -/
def Obligations.ConstructionGivesTheStateOfR33 : Prop :=
  ∀ (PinId : Type) [DecidableEq PinId] (r : RawConfig PinId),
    (r.wf = true → ∃ s, construct r = .next s ∧
      s.cfg.geometry.width = r.width ∧ s.cfg.geometry.lines = r.lines ∧ s.cfg.timing = r.timing ∧
      s.cfg.switches = r.switches ∧
      (∀ pins, r.transport = .gpio pins → s.cfg.transport = .gpio pins) ∧
      (∀ b, r.transport = .i2c b → ∃ a, s.cfg.transport = .i2c a ∧ a.toNat = b.toNat) ∧
      s.active = false ∧ s.backlight = false ∧ s.cache = List.replicate r.lines none ∧
      s.lines = allLines .z ∧ s.busy = false ∧ s.trace = [] ∧ s.responses = []) ∧
    (r.wf = false → ∃ why, construct r = .refused why)

/-- `normalize` makes a text exactly W bytes long, by padding on the right with 0x20 and cutting (42 R88; D4), and a
text of W bytes stays. -/
def Obligations.NormalizePadsAndCuts : Prop :=
  ∀ (w : Nat) (text : Text),
    normalize w text = Spec.shownText w text ∧ (normalize w text).length = w ∧
      normalize w (normalize w text) = normalize w text

/-- `split` cuts at every 0x0A and drops those bytes (42 R94; D5): one segment more than there are line breaks, no
segment holds one, and joining the segments with line breaks gives the text back. -/
def Obligations.SplitCutsAtLineBreaks : Prop :=
  ∀ text : Text,
    (splitLines text).length = text.count 0x0A + 1 ∧ (∀ seg ∈ splitLines text, (0x0A : Byte) ∉ seg) ∧
      [(0x0A : Byte)].intercalate (splitLines text) = text

/-- `DisplayLines` stands for one `Display` request per segment, in order, segment index = line index (42 R93; D6). -/
def Obligations.DisplayLinesExpands : Prop :=
  ∀ text : Text,
    (displayLines text).length = (splitLines text).length ∧
      ∀ (k : Nat) (seg : Text), (splitLines text)[k]? = some seg →
        ∃ r, (displayLines text)[k]? = some r ∧ decode (.request r) = .ok (.reqDisplay (k : Int) seg)

/-! ## Invariants and who writes what -/

/-- The state after construction with a well-formed configuration meets the invariant, State.reset's among them. -/
def Obligations.FreshStateMeetsInvariant : Prop :=
  Safety.Inv State.reset ∧ ∀ c : Config, c.wf = true → Safety.Inv (State.fresh c)

/-- Every step keeps the invariant of the block, from every state that meets it: a well-formed configuration; L cache
entries, each text of W bytes (R24, R32); the lines where the trace drove them (R25, R58); active exactly while the
transport is held, then no line Z and E low (R30, R77); the backlight off while inactive and in the GPIO variant (R23). -/
def Obligations.StepKeepsInvariant : Prop :=
  ∀ s t : State, Safety.Inv s → step s = .next t → Safety.Inv t

/-- The configuration is never written (R6, R15). -/
def Obligations.ConfigurationNeverChanges : Prop :=
  (∀ (i : Instr) (s t : State), exec i s = .next t → t.cfg = s.cfg) ∧
    ∀ s t : State, step s = .next t → t.cfg = s.cfg

/-- The flag `active` (R22): written only by `Open`, to 1, and by `Close`, to 0; read by `Active`; without it no request
but `Open` does anything; 0 after construction. -/
def Obligations.ActiveFlag : Prop :=
  (∀ (i : Instr) (s t : State), exec i s = .next t → t.active ≠ s.active →
    (i = .reqOpen ∧ t.active = true) ∨ (i = .reqClose ∧ t.active = false)) ∧
  (∀ (s t : State), exec .reqOpen s = .next t → t.responses = s.responses ++ [Spec.okay] → t.active = true) ∧
  (∀ (s t : State), exec .reqClose s = .next t → t.active = false) ∧
  (∀ (s : State), ∃ t, exec .reqActive s = .next t ∧
    t.responses = s.responses ++ [{ code := .ok, value := some s.active }]) ∧
  (∀ (i : Instr) (s t : State), Spec.isRequest i = true → i ≠ .reqOpen → s.active = false → exec i s = .next t →
    t.trace = s.trace ∧ t.lines = s.lines ∧ t.cache = s.cache ∧ t.backlight = s.backlight ∧ t.active = false) ∧
  ∀ c : Config, (State.fresh c).active = false

/-- The flag `backlight` (R23; D23): written only in the I2C variant, by `Open`, `Close` and `ToggleBacklight`; in the
GPIO variant it reads 0. -/
def Obligations.BacklightWriters : Prop :=
  (∀ (i : Instr) (s t : State), exec i s = .next t → t.backlight ≠ s.backlight →
    s.isI2c = true ∧ (i = .reqOpen ∨ i = .reqClose ∨ i = .reqToggleBacklight)) ∧
  (∀ s : State, s.isI2c = false → readBacklight s = false) ∧
  ∀ s : State, s.isI2c = true → readBacklight s = s.backlight

/-- The cache (R24, R51): written only by `Open`, `Close`, `Clear`, `Display`, and by `Reset` with its switch; `Display`
writes no entry but its line's. -/
def Obligations.CacheWriters : Prop :=
  (∀ (i : Instr) (s t : State), exec i s = .next t → t.cache ≠ s.cache →
    i = .reqOpen ∨ i = .reqClose ∨ i = .reqClear ∨ (∃ line text, i = .reqDisplay line text) ∨
      (i = .reqReset ∧ s.cfg.switches.resetInvalidatesCache = true)) ∧
  ∀ (s t : State) (line : Int) (text : Text) (j : Nat), exec (.reqDisplay line text) s = .next t →
    (j : Int) ≠ line → t.cache[j]? = s.cache[j]?

/-! ## The two transports -/

/-- Both transports emit the same canonical trace for the same request from the same state (R82): two states that differ
in transport and backlight alone answer alike and emit the same events but for `BL`, and `BL` is emitted only in the I2C
variant, by `Open`, `Close` and `ToggleBacklight`. -/
def Obligations.BothTransportsSameTrace : Prop :=
  (∀ (i : Instr) (s t t' : State) (tr : Transport) (b : Bool), exec i s = .next t →
    exec i { s with cfg := { s.cfg with transport := tr }, backlight := b } = .next t' →
      (t'.trace.filter Spec.notBacklight = t.trace.filter Spec.notBacklight) ∧ t'.responses = t.responses ∧
        t'.lines = t.lines ∧ t'.cache = t.cache ∧ t'.active = t.active) ∧
  ∀ (i : Instr) (s t : State) (evs : List Event) (v : Bool), exec i s = .next t → t.trace = s.trace ++ evs →
    .bl v ∈ evs → s.isI2c = true ∧ (i = .reqOpen ∨ i = .reqClose ∨ i = .reqToggleBacklight)

/-- The default I2C rendering (30_encoding R74, R76; D24, D34): after every physical write one bus write, to the one
address, of the byte D7 D6 D5 D4 BL E 0 RS as the event leaves them; `ACQ`, `REL` and `WAIT` as their calls. A block's
calls go to the address of its configuration (10_state R20), and with the default layout they are the bytes it writes. -/
def Obligations.ExpanderRendering : Prop :=
  (∀ (tm : Timing) (addr : BitVec 7) (ls : Lines) (light : Bool),
    expanderCalls tm addr ls light [] = [] ∧
    (∀ (evs : List Event) (ev : Event), ∃ b : Byte,
      expanderCalls tm addr ls light (evs ++ [ev]) =
        expanderCalls tm addr ls light evs ++ Spec.busCalls tm addr b ev ∧
      b.getLsbD 7 = Spec.lineIsHigh .d7 ls (evs ++ [ev]) ∧ b.getLsbD 6 = Spec.lineIsHigh .d6 ls (evs ++ [ev]) ∧
      b.getLsbD 5 = Spec.lineIsHigh .d5 ls (evs ++ [ev]) ∧ b.getLsbD 4 = Spec.lineIsHigh .d4 ls (evs ++ [ev]) ∧
      b.getLsbD 3 = Spec.lightIsOn light (evs ++ [ev]) ∧ b.getLsbD 2 = Spec.lineIsHigh .e ls (evs ++ [ev]) ∧
      b.getLsbD 1 = false ∧ b.getLsbD 0 = Spec.lineIsHigh .rs ls (evs ++ [ev])) ∧
    ∀ evs : List Event,
      (busBytes (expanderCalls tm addr ls light evs)).length = physicalWrites evs ∧
        (∀ b ∈ busBytes (expanderCalls tm addr ls light evs), b.getLsbD 1 = false) ∧
        ∀ a b, BusCall.write a b ∈ expanderCalls tm addr ls light evs → a = addr) ∧
  ∀ (PinId : Type) (s : State PinId) (addr : BitVec 7), s.cfg.transport = .i2c addr →
    s.expanderCalls = expanderCalls s.cfg.timing addr Lines.released false s.trace ∧
      (∀ a b, BusCall.write a b ∈ s.expanderCalls → a = addr) ∧
      (s.cfg.switches.i2cRender = .expander → s.i2cBytes = busBytes s.expanderCalls)

/-- The GPIO rendering (30_encoding R73; D15), whatever the type of pin identifiers (10_state R19): `PIN(p, v)` sets the
pin `CFG.PIN_p` to v, `LOW` sets the six pins to 0 in the order RS, E, D4 to D7, `ACQ`, `REL` and `WAIT` are their calls.
So a `LOW` is six pin calls and every other physical write one; a pin call names one of the six pins. A block's calls are
on the pins of its configuration. -/
def Obligations.GpioRendering : Prop :=
  ∀ PinId : Type,
    (∀ (tm : Timing) (pins : Pins PinId),
      gpioCalls tm pins [] = [] ∧
      (∀ (evs : List Event) (ev : Event),
        gpioCalls tm pins (evs ++ [ev]) = gpioCalls tm pins evs ++ Spec.pinCalls tm pins ev) ∧
      ∀ evs : List Event, (∀ v, Event.bl v ∉ evs) →
        (gpioCalls tm pins evs).countP Spec.isSetCall = physicalWrites evs + 5 * evs.count .low ∧
          ∀ p v, GpioCall.set p v ∈ gpioCalls tm pins evs →
            p ∈ [pins.rs, pins.e, pins.d4, pins.d5, pins.d6, pins.d7]) ∧
    ∀ (s : State PinId),
      (∀ pins : Pins PinId, s.cfg.transport = .gpio pins → s.gpioCalls = gpioCalls s.cfg.timing pins s.trace) ∧
        ((∃ addr, s.cfg.transport = .i2c addr) → s.gpioCalls = [])
end

