-- ==== Sys2Proof/Laws/State.lean ====
section
/-! SUPPORT. One lemma per field per update of the state, so that no proof unfolds a record update. -/

namespace Sys2Proof.Machine

variable {PinId : Type}

/-! ### `setActive` -/

@[simp] theorem setActive_cfg (v : Bool) (s : State PinId) : (setActive v s).cfg = s.cfg := rfl
@[simp] theorem setActive_active (v : Bool) (s : State PinId) : (setActive v s).active = v := rfl
@[simp] theorem setActive_backlight (v : Bool) (s : State PinId) : (setActive v s).backlight = s.backlight := rfl
@[simp] theorem setActive_cache (v : Bool) (s : State PinId) : (setActive v s).cache = s.cache := rfl
@[simp] theorem setActive_lines (v : Bool) (s : State PinId) : (setActive v s).lines = s.lines := rfl
@[simp] theorem setActive_service (v : Bool) (s : State PinId) : (setActive v s).service = s.service := rfl
@[simp] theorem setActive_trace (v : Bool) (s : State PinId) : (setActive v s).trace = s.trace := rfl
@[simp] theorem setActive_responses (v : Bool) (s : State PinId) : (setActive v s).responses = s.responses := rfl
@[simp] theorem setActive_requesters (v : Bool) (s : State PinId) : (setActive v s).requesters = s.requesters := rfl
@[simp] theorem setActive_acquireAnswers (v : Bool) (s : State PinId) :
    (setActive v s).acquireAnswers = s.acquireAnswers := rfl
@[simp] theorem setActive_draws (v : Bool) (s : State PinId) : (setActive v s).draws = s.draws := rfl
@[simp] theorem setActive_isI2c (v : Bool) (s : State PinId) : (setActive v s).isI2c = s.isI2c := rfl

/-! ### `setBacklight` -/

@[simp] theorem setBacklight_cfg (v : Bool) (s : State PinId) : (setBacklight v s).cfg = s.cfg := rfl
@[simp] theorem setBacklight_active (v : Bool) (s : State PinId) : (setBacklight v s).active = s.active := rfl
@[simp] theorem setBacklight_backlight (v : Bool) (s : State PinId) :
    (setBacklight v s).backlight = if s.isI2c then v else s.backlight := rfl
@[simp] theorem setBacklight_cache (v : Bool) (s : State PinId) : (setBacklight v s).cache = s.cache := rfl
@[simp] theorem setBacklight_lines (v : Bool) (s : State PinId) : (setBacklight v s).lines = s.lines := rfl
@[simp] theorem setBacklight_service (v : Bool) (s : State PinId) : (setBacklight v s).service = s.service := rfl
@[simp] theorem setBacklight_trace (v : Bool) (s : State PinId) : (setBacklight v s).trace = s.trace := rfl
@[simp] theorem setBacklight_responses (v : Bool) (s : State PinId) : (setBacklight v s).responses = s.responses := rfl
@[simp] theorem setBacklight_requesters (v : Bool) (s : State PinId) : (setBacklight v s).requesters = s.requesters := rfl
@[simp] theorem setBacklight_acquireAnswers (v : Bool) (s : State PinId) :
    (setBacklight v s).acquireAnswers = s.acquireAnswers := rfl
@[simp] theorem setBacklight_draws (v : Bool) (s : State PinId) : (setBacklight v s).draws = s.draws := rfl
@[simp] theorem setBacklight_isI2c (v : Bool) (s : State PinId) : (setBacklight v s).isI2c = s.isI2c := rfl

/-! ### `setCacheEntry` -/

@[simp] theorem setCacheEntry_cfg (i : Nat) (t : Text) (s : State PinId) : (setCacheEntry i t s).cfg = s.cfg := rfl
@[simp] theorem setCacheEntry_active (i : Nat) (t : Text) (s : State PinId) : (setCacheEntry i t s).active = s.active := rfl
@[simp] theorem setCacheEntry_backlight (i : Nat) (t : Text) (s : State PinId) :
    (setCacheEntry i t s).backlight = s.backlight := rfl
@[simp] theorem setCacheEntry_cache (i : Nat) (t : Text) (s : State PinId) :
    (setCacheEntry i t s).cache = s.cache.set i (some t) := rfl
@[simp] theorem setCacheEntry_lines (i : Nat) (t : Text) (s : State PinId) : (setCacheEntry i t s).lines = s.lines := rfl
@[simp] theorem setCacheEntry_service (i : Nat) (t : Text) (s : State PinId) :
    (setCacheEntry i t s).service = s.service := rfl
@[simp] theorem setCacheEntry_trace (i : Nat) (t : Text) (s : State PinId) : (setCacheEntry i t s).trace = s.trace := rfl
@[simp] theorem setCacheEntry_responses (i : Nat) (t : Text) (s : State PinId) :
    (setCacheEntry i t s).responses = s.responses := rfl
@[simp] theorem setCacheEntry_requesters (i : Nat) (t : Text) (s : State PinId) :
    (setCacheEntry i t s).requesters = s.requesters := rfl
@[simp] theorem setCacheEntry_acquireAnswers (i : Nat) (t : Text) (s : State PinId) :
    (setCacheEntry i t s).acquireAnswers = s.acquireAnswers := rfl
@[simp] theorem setCacheEntry_draws (i : Nat) (t : Text) (s : State PinId) : (setCacheEntry i t s).draws = s.draws := rfl
@[simp] theorem setCacheEntry_isI2c (i : Nat) (t : Text) (s : State PinId) : (setCacheEntry i t s).isI2c = s.isI2c := rfl

/-! ### `fillCache` -/

@[simp] theorem fillCache_cfg (entry : Option Text) (s : State PinId) : (fillCache entry s).cfg = s.cfg := rfl
@[simp] theorem fillCache_active (entry : Option Text) (s : State PinId) : (fillCache entry s).active = s.active := rfl
@[simp] theorem fillCache_backlight (entry : Option Text) (s : State PinId) :
    (fillCache entry s).backlight = s.backlight := rfl
@[simp] theorem fillCache_cache (entry : Option Text) (s : State PinId) :
    (fillCache entry s).cache = List.replicate s.cfg.geometry.lines entry := rfl
@[simp] theorem fillCache_lines (entry : Option Text) (s : State PinId) : (fillCache entry s).lines = s.lines := rfl
@[simp] theorem fillCache_service (entry : Option Text) (s : State PinId) : (fillCache entry s).service = s.service := rfl
@[simp] theorem fillCache_trace (entry : Option Text) (s : State PinId) : (fillCache entry s).trace = s.trace := rfl
@[simp] theorem fillCache_responses (entry : Option Text) (s : State PinId) :
    (fillCache entry s).responses = s.responses := rfl
@[simp] theorem fillCache_requesters (entry : Option Text) (s : State PinId) :
    (fillCache entry s).requesters = s.requesters := rfl
@[simp] theorem fillCache_acquireAnswers (entry : Option Text) (s : State PinId) :
    (fillCache entry s).acquireAnswers = s.acquireAnswers := rfl
@[simp] theorem fillCache_draws (entry : Option Text) (s : State PinId) : (fillCache entry s).draws = s.draws := rfl
@[simp] theorem fillCache_isI2c (entry : Option Text) (s : State PinId) : (fillCache entry s).isI2c = s.isI2c := rfl

/-! ### `emit` -/

@[simp] theorem emit_cfg (evs : List Event) (s : State PinId) : (emit evs s).cfg = s.cfg := rfl
@[simp] theorem emit_active (evs : List Event) (s : State PinId) : (emit evs s).active = s.active := rfl
@[simp] theorem emit_backlight (evs : List Event) (s : State PinId) : (emit evs s).backlight = s.backlight := rfl
@[simp] theorem emit_cache (evs : List Event) (s : State PinId) : (emit evs s).cache = s.cache := rfl
@[simp] theorem emit_lines (evs : List Event) (s : State PinId) : (emit evs s).lines = applyEvents s.lines evs := rfl
@[simp] theorem emit_service (evs : List Event) (s : State PinId) : (emit evs s).service = s.service := rfl
@[simp] theorem emit_trace (evs : List Event) (s : State PinId) : (emit evs s).trace = s.trace ++ evs := rfl
@[simp] theorem emit_responses (evs : List Event) (s : State PinId) : (emit evs s).responses = s.responses := rfl
@[simp] theorem emit_requesters (evs : List Event) (s : State PinId) : (emit evs s).requesters = s.requesters := rfl
@[simp] theorem emit_acquireAnswers (evs : List Event) (s : State PinId) :
    (emit evs s).acquireAnswers = s.acquireAnswers := rfl
@[simp] theorem emit_draws (evs : List Event) (s : State PinId) : (emit evs s).draws = s.draws := rfl
@[simp] theorem emit_isI2c (evs : List Event) (s : State PinId) : (emit evs s).isI2c = s.isI2c := rfl

/-! ### `answer` -/

@[simp] theorem answer_cfg (code : ResponseCode) (value : Option Bool) (s : State PinId) :
    (answer code value s).cfg = s.cfg := rfl
@[simp] theorem answer_active (code : ResponseCode) (value : Option Bool) (s : State PinId) :
    (answer code value s).active = s.active := rfl
@[simp] theorem answer_backlight (code : ResponseCode) (value : Option Bool) (s : State PinId) :
    (answer code value s).backlight = s.backlight := rfl
@[simp] theorem answer_cache (code : ResponseCode) (value : Option Bool) (s : State PinId) :
    (answer code value s).cache = s.cache := rfl
@[simp] theorem answer_lines (code : ResponseCode) (value : Option Bool) (s : State PinId) :
    (answer code value s).lines = s.lines := rfl
@[simp] theorem answer_service (code : ResponseCode) (value : Option Bool) (s : State PinId) :
    (answer code value s).service = s.service := rfl
@[simp] theorem answer_trace (code : ResponseCode) (value : Option Bool) (s : State PinId) :
    (answer code value s).trace = s.trace := rfl
@[simp] theorem answer_responses (code : ResponseCode) (value : Option Bool) (s : State PinId) :
    (answer code value s).responses = s.responses ++ [{ code := code, value := value }] := rfl
@[simp] theorem answer_requesters (code : ResponseCode) (value : Option Bool) (s : State PinId) :
    (answer code value s).requesters = s.requesters := rfl
@[simp] theorem answer_acquireAnswers (code : ResponseCode) (value : Option Bool) (s : State PinId) :
    (answer code value s).acquireAnswers = s.acquireAnswers := rfl
@[simp] theorem answer_draws (code : ResponseCode) (value : Option Bool) (s : State PinId) :
    (answer code value s).draws = s.draws := rfl
@[simp] theorem answer_isI2c (code : ResponseCode) (value : Option Bool) (s : State PinId) : (answer code value s).isI2c = s.isI2c := rfl

/-! ### `respondOk` -/

@[simp] theorem respondOk_cfg (s : State PinId) : (respondOk s).cfg = s.cfg := rfl
@[simp] theorem respondOk_active (s : State PinId) : (respondOk s).active = s.active := rfl
@[simp] theorem respondOk_backlight (s : State PinId) : (respondOk s).backlight = s.backlight := rfl
@[simp] theorem respondOk_cache (s : State PinId) : (respondOk s).cache = s.cache := rfl
@[simp] theorem respondOk_lines (s : State PinId) : (respondOk s).lines = s.lines := rfl
@[simp] theorem respondOk_service (s : State PinId) : (respondOk s).service = s.service := rfl
@[simp] theorem respondOk_trace (s : State PinId) : (respondOk s).trace = s.trace := rfl
@[simp] theorem respondOk_responses (s : State PinId) :
    (respondOk s).responses = s.responses ++ [{ code := .ok, value := none }] := rfl
@[simp] theorem respondOk_requesters (s : State PinId) : (respondOk s).requesters = s.requesters := rfl
@[simp] theorem respondOk_acquireAnswers (s : State PinId) : (respondOk s).acquireAnswers = s.acquireAnswers := rfl
@[simp] theorem respondOk_draws (s : State PinId) : (respondOk s).draws = s.draws := rfl
@[simp] theorem respondOk_isI2c (s : State PinId) : (respondOk s).isI2c = s.isI2c := rfl

/-! ### `raise` -/

@[simp] theorem raise_cfg (code : ResponseCode) (s : State PinId) : (raise code s).cfg = s.cfg := rfl
@[simp] theorem raise_active (code : ResponseCode) (s : State PinId) : (raise code s).active = s.active := rfl
@[simp] theorem raise_backlight (code : ResponseCode) (s : State PinId) : (raise code s).backlight = s.backlight := rfl
@[simp] theorem raise_cache (code : ResponseCode) (s : State PinId) : (raise code s).cache = s.cache := rfl
@[simp] theorem raise_lines (code : ResponseCode) (s : State PinId) : (raise code s).lines = s.lines := rfl
@[simp] theorem raise_service (code : ResponseCode) (s : State PinId) : (raise code s).service = s.service := rfl
@[simp] theorem raise_trace (code : ResponseCode) (s : State PinId) : (raise code s).trace = s.trace := rfl
@[simp] theorem raise_responses (code : ResponseCode) (s : State PinId) :
    (raise code s).responses = s.responses ++ [{ code := code, value := none }] := rfl
@[simp] theorem raise_requesters (code : ResponseCode) (s : State PinId) : (raise code s).requesters = s.requesters := rfl
@[simp] theorem raise_acquireAnswers (code : ResponseCode) (s : State PinId) :
    (raise code s).acquireAnswers = s.acquireAnswers := rfl
@[simp] theorem raise_draws (code : ResponseCode) (s : State PinId) : (raise code s).draws = s.draws := rfl
@[simp] theorem raise_isI2c (code : ResponseCode) (s : State PinId) : (raise code s).isI2c = s.isI2c := rfl

/-! ### `takeOffer` -/

@[simp] theorem takeOffer_cfg (k : Nat) (s : State PinId) : (takeOffer k s).cfg = s.cfg := rfl
@[simp] theorem takeOffer_active (k : Nat) (s : State PinId) : (takeOffer k s).active = s.active := rfl
@[simp] theorem takeOffer_backlight (k : Nat) (s : State PinId) : (takeOffer k s).backlight = s.backlight := rfl
@[simp] theorem takeOffer_cache (k : Nat) (s : State PinId) : (takeOffer k s).cache = s.cache := rfl
@[simp] theorem takeOffer_lines (k : Nat) (s : State PinId) : (takeOffer k s).lines = s.lines := rfl
@[simp] theorem takeOffer_service (k : Nat) (s : State PinId) : (takeOffer k s).service = s.service := rfl
@[simp] theorem takeOffer_trace (k : Nat) (s : State PinId) : (takeOffer k s).trace = s.trace := rfl
@[simp] theorem takeOffer_responses (k : Nat) (s : State PinId) : (takeOffer k s).responses = s.responses := rfl
@[simp] theorem takeOffer_requesters (k : Nat) (s : State PinId) :
    (takeOffer k s).requesters = s.requesters.modify k List.tail := rfl
@[simp] theorem takeOffer_acquireAnswers (k : Nat) (s : State PinId) :
    (takeOffer k s).acquireAnswers = s.acquireAnswers := rfl
@[simp] theorem takeOffer_draws (k : Nat) (s : State PinId) : (takeOffer k s).draws = s.draws := rfl
@[simp] theorem takeOffer_isI2c (k : Nat) (s : State PinId) : (takeOffer k s).isI2c = s.isI2c := rfl

/-! ### `lightBacklight`, `drawAcquire`, `drawPick` -/

@[simp] theorem lightBacklight_cfg (v : Bool) (s : State PinId) : (lightBacklight v s).cfg = s.cfg := by
  unfold lightBacklight; split <;> rfl
@[simp] theorem lightBacklight_active (v : Bool) (s : State PinId) : (lightBacklight v s).active = s.active := by
  unfold lightBacklight; split <;> rfl
@[simp] theorem lightBacklight_cache (v : Bool) (s : State PinId) : (lightBacklight v s).cache = s.cache := by
  unfold lightBacklight; split <;> rfl
@[simp] theorem lightBacklight_lines (v : Bool) (s : State PinId) : (lightBacklight v s).lines = s.lines := by
  unfold lightBacklight; split <;> rfl
@[simp] theorem lightBacklight_service (v : Bool) (s : State PinId) : (lightBacklight v s).service = s.service := by
  unfold lightBacklight; split <;> rfl
@[simp] theorem lightBacklight_responses (v : Bool) (s : State PinId) : (lightBacklight v s).responses = s.responses := by
  unfold lightBacklight; split <;> rfl
@[simp] theorem lightBacklight_requesters (v : Bool) (s : State PinId) : (lightBacklight v s).requesters = s.requesters := by
  unfold lightBacklight; split <;> rfl
@[simp] theorem lightBacklight_acquireAnswers (v : Bool) (s : State PinId) : (lightBacklight v s).acquireAnswers = s.acquireAnswers := by
  unfold lightBacklight; split <;> rfl
@[simp] theorem lightBacklight_draws (v : Bool) (s : State PinId) : (lightBacklight v s).draws = s.draws := by
  unfold lightBacklight; split <;> rfl
@[simp] theorem lightBacklight_isI2c (v : Bool) (s : State PinId) : (lightBacklight v s).isI2c = s.isI2c := by
  unfold lightBacklight; split <;> rfl
@[simp] theorem lightBacklight_backlight (v : Bool) (s : State PinId) :
    (lightBacklight v s).backlight = if s.isI2c then v else s.backlight := by
  unfold lightBacklight; cases h : s.isI2c <;> simp [h]
@[simp] theorem lightBacklight_trace (v : Bool) (s : State PinId) :
    (lightBacklight v s).trace = s.trace ++ if s.isI2c then [.bl v] else [] := by
  unfold lightBacklight; cases h : s.isI2c <;> simp

@[simp] theorem drawAcquire_cfg (s : State PinId) : (drawAcquire s).2.cfg = s.cfg := by
  unfold drawAcquire; split <;> rfl
@[simp] theorem drawAcquire_active (s : State PinId) : (drawAcquire s).2.active = s.active := by
  unfold drawAcquire; split <;> rfl
@[simp] theorem drawAcquire_backlight (s : State PinId) : (drawAcquire s).2.backlight = s.backlight := by
  unfold drawAcquire; split <;> rfl
@[simp] theorem drawAcquire_cache (s : State PinId) : (drawAcquire s).2.cache = s.cache := by
  unfold drawAcquire; split <;> rfl
@[simp] theorem drawAcquire_lines (s : State PinId) : (drawAcquire s).2.lines = s.lines := by
  unfold drawAcquire; split <;> rfl
@[simp] theorem drawAcquire_service (s : State PinId) : (drawAcquire s).2.service = s.service := by
  unfold drawAcquire; split <;> rfl
@[simp] theorem drawAcquire_trace (s : State PinId) : (drawAcquire s).2.trace = s.trace := by
  unfold drawAcquire; split <;> rfl
@[simp] theorem drawAcquire_responses (s : State PinId) : (drawAcquire s).2.responses = s.responses := by
  unfold drawAcquire; split <;> rfl
@[simp] theorem drawAcquire_requesters (s : State PinId) : (drawAcquire s).2.requesters = s.requesters := by
  unfold drawAcquire; split <;> rfl
@[simp] theorem drawAcquire_isI2c (s : State PinId) : (drawAcquire s).2.isI2c = s.isI2c := by
  unfold drawAcquire; split <;> rfl

@[simp] theorem drawPick_cfg (n : Nat) (s : State PinId) : (drawPick n s).2.cfg = s.cfg := rfl
@[simp] theorem drawPick_active (n : Nat) (s : State PinId) : (drawPick n s).2.active = s.active := rfl
@[simp] theorem drawPick_backlight (n : Nat) (s : State PinId) : (drawPick n s).2.backlight = s.backlight := rfl
@[simp] theorem drawPick_cache (n : Nat) (s : State PinId) : (drawPick n s).2.cache = s.cache := rfl
@[simp] theorem drawPick_lines (n : Nat) (s : State PinId) : (drawPick n s).2.lines = s.lines := rfl
@[simp] theorem drawPick_service (n : Nat) (s : State PinId) : (drawPick n s).2.service = s.service := rfl
@[simp] theorem drawPick_trace (n : Nat) (s : State PinId) : (drawPick n s).2.trace = s.trace := rfl
@[simp] theorem drawPick_responses (n : Nat) (s : State PinId) : (drawPick n s).2.responses = s.responses := rfl
@[simp] theorem drawPick_requesters (n : Nat) (s : State PinId) : (drawPick n s).2.requesters = s.requesters := rfl
@[simp] theorem drawPick_acquireAnswers (n : Nat) (s : State PinId) : (drawPick n s).2.acquireAnswers = s.acquireAnswers := rfl
@[simp] theorem drawPick_draws (n : Nat) (s : State PinId) : (drawPick n s).2.draws = s.draws + 1 := rfl

end Sys2Proof.Machine
end

