-- ==== Sys2Proof/Laws/Framer.lean ====
section
/-! SUPPORT. What a framer call does to the lines, what the controller latches from it, and how the readers of a trace
(latches, transfers, enable pulses, counts) run over a call and over a concatenation. -/

namespace Sys2Proof.Machine

variable {PinId : Type}

/-! ### The lines -/

@[simp] theorem applyEvents_nil (ls : Lines) : applyEvents ls [] = ls := rfl

@[simp] theorem applyEvents_cons (ls : Lines) (ev : Event) (evs : List Event) :
    applyEvents ls (ev :: evs) = applyEvents (applyEvent ls ev) evs := rfl

@[simp] theorem applyEvents_append (ls : Lines) (xs ys : List Event) :
    applyEvents ls (xs ++ ys) = applyEvents (applyEvents ls xs) ys := List.foldl_append

/-- The lines with RS at the mode, E low and a nibble on the data lines. -/
def linesShowing (rs : Level) (n : Nibble) : Lines :=
  { rs := rs, e := .low, d4 := levelOf (n.getLsbD 0), d5 := levelOf (n.getLsbD 1), d6 := levelOf (n.getLsbD 2),
    d7 := levelOf (n.getLsbD 3) }

@[simp] theorem applyEvents_pulse (ls : Lines) (n : Nibble) :
    applyEvents ls (pulse n) = linesShowing ls.rs n := by
  simp [pulse, applyEvent, setLine, linesShowing, levelOf]

@[simp] theorem applyEvents_write4Bits (c : Config PinId) (ls : Lines) (v : Byte) (rs : Bool) :
    applyEvents ls (write4Bits c v rs) = linesShowing (levelOf rs) (loNibble v) := by
  unfold write4Bits
  split <;> simp [applyEvent, setLine, linesShowing]

@[simp] theorem applyEvents_writeByte (ls : Lines) (v : Byte) (rs : Bool) :
    applyEvents ls (writeByte v rs) = linesShowing (levelOf rs) (loNibble v) := by
  simp [writeByte, applyEvent, setLine, linesShowing]

@[simp] theorem applyEvents_command (ls : Lines) (v : Byte) :
    applyEvents ls (command v) = linesShowing .low (loNibble v) := by
  simp [command, levelOf]

theorem characters_cons (b : Byte) (t : Text) : characters (b :: t) = character b ++ characters t := rfl

theorem characters_append (t u : Text) : characters (t ++ u) = characters t ++ characters u := by
  simp [characters]

/-- A run of characters leaves the lines showing the last of them. -/
theorem applyEvents_characters (ls : Lines) (t : Text) (h : t ≠ []) :
    applyEvents ls (characters t) = linesShowing .high (loNibble (t.getLastD 0)) := by
  obtain ⟨u, b, rfl⟩ := List.eq_nil_or_concat t |>.resolve_left h
  simp [characters, character, levelOf]

/-! ### Latches -/

@[simp] theorem latchesFrom_nil (ls : Lines) : latchesFrom ls [] = [] := rfl

theorem latchesFrom_append (ls : Lines) (xs ys : List Event) :
    latchesFrom ls (xs ++ ys) = latchesFrom ls xs ++ latchesFrom (applyEvents ls xs) ys := by
  induction xs generalizing ls with
  | nil => rfl
  | cons ev xs ih => simp [latchesFrom, ih]

@[simp] theorem levelBit_levelOf (v : Bool) : levelBit (levelOf v) = v := by cases v <;> rfl

@[simp] theorem nibbleOn_linesShowing (rs : Level) (n : Nibble) : nibbleOn (linesShowing rs n) = n := by
  simp only [nibbleOn, linesShowing, levelBit_levelOf]
  revert n; decide

/-- A pulse latches its nibble once, in the mode RS has. -/
theorem latchesFrom_pulse (ls : Lines) (n : Nibble) :
    latchesFrom ls (pulse n) = [{ rs := levelBit ls.rs, nibble := n }] := by
  have h := nibbleOn_linesShowing ls.rs n
  simp [nibbleOn, linesShowing] at h
  simp [pulse, latchesFrom, latchAt, applyEvent, setLine, nibbleOn, h]
  simp [levelOf]

/-! ### Bits -/

@[simp] theorem levelOf_true : levelOf true = .high := rfl
@[simp] theorem levelOf_false : levelOf false = .low := rfl

@[simp] theorem nibbleOn_bits (rs e : Level) (n : Nibble) :
    nibbleOn
      { rs := rs, e := e, d4 := levelOf n[0], d5 := levelOf n[1], d6 := levelOf n[2], d7 := levelOf n[3] } = n :=
  nibbleOn_linesShowing rs n

end Sys2Proof.Machine
end

