-- ==== Sys2Proof/Laws/Calls.lean ====
section
/-! SUPPORT. Reading transfers from a run of events: one lemma per framer call, and `Sends`, the words a run of events
adds whatever was read before it, which composes over concatenation. -/

namespace Sys2Proof.Machine

variable {PinId : Type}

/-- A scan that has just read one framer call, begun in the scan `sc`. -/
def scanAfterCall (t : Timing) (sc : Scan) (rs : Bool) (ns : List Nibble) (last : Nibble) (settle : Nat) : Scan :=
  { lines := linesShowing (levelOf rs) last,
    current :=
      some { rs := rs, nibbles := ns, gapBefore := sc.sinceLatch + t.tPulse + t.tPulse, settleAfter := t.tPulse + settle },
    settling := true, sinceLatch := t.tPulse + settle, done := sc.done ++ sc.current.toList }

theorem scan_writeByte (t : Timing) (sc : Scan) (v : Byte) (rs : Bool) :
    (writeByte v rs).foldl (scanEvent t) sc =
      scanAfterCall t sc rs [hiNibble v, loNibble v] (loNibble v) t.tSettle := by
  simp [writeByte, pulse, scanEvent, latchAt, applyEvent, setLine, closeTransfer, addLatch, addWait, duration,
    scanAfterCall, linesShowing]

theorem scan_write4Bits (c : Config PinId) (t : Timing) (sc : Scan) (v : Byte) (rs : Bool) :
    (write4Bits c v rs).foldl (scanEvent t) sc =
      scanAfterCall t sc rs [loNibble v] (loNibble v) (if c.switches.write4Settle then t.tSettle else 0) := by
  cases h : c.switches.write4Settle <;>
    simp [write4Bits, h, pulse, scanEvent, latchAt, applyEvent, setLine, closeTransfer, addLatch, addWait, duration,
      scanAfterCall, linesShowing]

/-- The transfers a scan has read, the one it is in among them. -/
def callsOf (sc : Scan) : List Transfer := sc.done ++ sc.current.toList

theorem transfersFrom_eq (t : Timing) (ls : Lines) (evs : List Event) :
    transfersFrom t ls evs = callsOf (evs.foldl (scanEvent t) (Scan.start ls)) := rfl

/-- The words of those transfers. -/
def wordsOf (sc : Scan) : List (Option PortItem) := (callsOf sc).map transferWord

/-- A run of events adds exactly the words `ws`, whatever was read before it. -/
def Sends (evs : List Event) (ws : List (Option PortItem)) : Prop :=
  ∀ (t : Timing) (sc : Scan), wordsOf (evs.foldl (scanEvent t) sc) = wordsOf sc ++ ws

theorem Sends.outputWords {evs : List Event} {ws : List (Option PortItem)} (h : Sends evs ws) (ls : Lines) :
    outputWords ls evs = ws := by
  have := h Timing.default (Scan.start ls)
  simpa [Machine.outputWords, transfersFrom_eq, wordsOf, callsOf, Scan.start] using this

theorem Sends.nil : Sends [] [] := by intro t sc; simp

theorem Sends.append {xs ys : List Event} {us vs : List (Option PortItem)} (h : Sends xs us) (k : Sends ys vs) :
    Sends (xs ++ ys) (us ++ vs) := by
  intro t sc
  rw [List.foldl_append, k, h, List.append_assoc]

theorem hi_append_lo (v : Byte) : (hiNibble v ++ loNibble v : BitVec 8) = v := by
  revert v; decide

/-- A byte is one `BYTE8` word. -/
theorem Sends.writeByte (v : Byte) (rs : Bool) :
    Sends (writeByte v rs) [some (.byte8 (BitVec.ofBool rs ++ v))] := by
  intro t sc
  have h := hi_append_lo v
  simp only [scan_writeByte, scanAfterCall, wordsOf, callsOf, Option.toList, List.map_append, List.map_cons,
    List.map_nil, transferWord]
  rw [h]

theorem Sends.command (v : Byte) : Sends (command v) [some (.byte8 (0#1 ++ v))] := Sends.writeByte v false

theorem Sends.character (v : Byte) : Sends (character v) [some (.byte8 (1#1 ++ v))] := Sends.writeByte v true

/-- A single nibble is one `NIB4` word. -/
theorem Sends.write4Bits (c : Config PinId) (v : Byte) (rs : Bool) :
    Sends (write4Bits c v rs) [some (.nib4 (BitVec.ofBool rs ++ loNibble v))] := by
  intro t sc
  simp [scan_write4Bits, scanAfterCall, wordsOf, callsOf, transferWord]

/-- A wait sends nothing. -/
theorem Sends.wait (d : Delay) : Sends [.wait d] [] := by
  intro t sc
  cases hc : sc.current with
  | none => simp [scanEvent, addWait, wordsOf, callsOf, hc]
  | some x => by_cases hs : sc.settling <;> simp [scanEvent, addWait, wordsOf, callsOf, hc, hs, transferWord]

/-- Neither do `LOW`, `REL`, `ACQ` and `BL`. -/
theorem Sends.other (ev : Event) (h : ev = .low ∨ ev = .rel ∨ ev = .acq ∨ ∃ v, ev = .bl v) : Sends [ev] [] := by
  intro t sc
  rcases h with rfl | rfl | rfl | ⟨v, rfl⟩ <;> simp [scanEvent, closeTransfer, wordsOf, callsOf]

theorem Sends.characters (t : Text) : Sends (characters t) (t.map fun b => some (.byte8 (1#1 ++ b))) := by
  induction t with
  | nil => exact Sends.nil
  | cons b t ih => exact (Sends.character b).append ih

theorem Sends.lineWrite (a : Byte) (t : Text) :
    Sends (lineWrite a t) (some (.byte8 (0#1 ++ a)) :: t.map fun b => some (.byte8 (1#1 ++ b))) :=
  (Sends.command a).append (Sends.characters t)

theorem Sends.clearCommand : Sends clearCommand [some (.byte8 0x001)] :=
  (Sends.command 0x01).append (Sends.wait .clear)

/-! ### Counts -/

theorem pinCount_append (xs ys : List Event) : pinCount (xs ++ ys) = pinCount xs + pinCount ys := by
  simp [pinCount]

theorem waitCount_append (xs ys : List Event) : waitCount (xs ++ ys) = waitCount xs + waitCount ys := by
  simp [waitCount]

theorem minWait_append (t : Timing) (xs ys : List Event) : minWait t (xs ++ ys) = minWait t xs + minWait t ys := by
  simp [minWait]

theorem physicalWrites_append (xs ys : List Event) :
    physicalWrites (xs ++ ys) = physicalWrites xs + physicalWrites ys := by
  simp [physicalWrites]

theorem transportHeld_append (xs ys : List Event) :
    transportHeld (xs ++ ys) = ys.foldl heldAfter (transportHeld xs) := by
  simp [transportHeld, List.foldl_append]

theorem held_pulse (held : Bool) (n : Nibble) : (pulse n).foldl heldAfter held = held := rfl

theorem held_writeByte (held : Bool) (v : Byte) (rs : Bool) : (writeByte v rs).foldl heldAfter held = held := rfl

theorem held_write4Bits (held : Bool) (c : Config PinId) (v : Byte) (rs : Bool) :
    (write4Bits c v rs).foldl heldAfter held = held := by
  cases h : c.switches.write4Settle <;> simp [write4Bits, h, pulse, heldAfter]

theorem held_characters (held : Bool) (t : Text) : (characters t).foldl heldAfter held = held := by
  induction t with
  | nil => rfl
  | cons b t ih => rw [characters_cons, List.foldl_append, character, held_writeByte, ih]

end Sys2Proof.Machine
end

