-- ==== Sys2Proof/Laws/Port.lean ====
section
/-! SUPPORT. The request port: what the arbiter picks, what accepting an offer does, and every turn the port can take,
said once. -/

namespace Sys2Proof.Machine

variable {PinId : Type}

theorem offered_of_waiting {s : State PinId} {k : Nat} (h : k ∈ waiting s) : ∃ r, offered k s = some r := by
  simp only [waiting, List.mem_filter] at h
  exact Option.isSome_iff_exists.1 h.2

/-- A requester whose `Active` waits is one of those waiting, is not the one being served, and offers `Active`. -/
theorem mem_waitingActive {s : State PinId} {k : Nat} :
    k ∈ waitingActive s ↔
      k ∈ waiting s ∧ s.service.bind Service.requester ≠ some k ∧
        offered k s = some { op := 0x8, operands := .none } := by
  simp only [waitingActive, List.mem_filter, Bool.and_eq_true, decide_eq_true_eq, Option.any_eq_true, isActiveRequest]
  constructor
  · rintro ⟨hw, hn, r, hr, rfl⟩; exact ⟨hw, hn, hr⟩
  · rintro ⟨hw, hn, hr⟩; exact ⟨hw, hn, _, hr, rfl⟩

/-- `Active` is the one request that decodes to it. -/
theorem decode_eq_reqActive {r : Request} (h : decode (.request r) = .ok .reqActive) :
    r = { op := 0x8, operands := .none } := by
  obtain ⟨op, operands⟩ := r
  simp only [decode, decodeRequest] at h
  split_ifs at h with h1 h2 h3 h4 h5 h6 h7 h8 <;> cases operands <;>
    simp_all [bareRequest, displayOf, setCharOf]

/-- The arbiter picks one of its candidates and changes the count of free values at most; of none it picks none. -/
theorem pickOne_cases (ks : List Nat) (s : State PinId) :
    (ks = [] ∧ pickOne ks s = none) ∨ ∃ k ∈ ks, ∃ d, pickOne ks s = some (k, { s with draws := d }) := by
  match ks with
  | [] => exact .inl ⟨rfl, rfl⟩
  | [k] => exact .inr ⟨k, by simp, s.draws, rfl⟩
  | k :: k' :: rest =>
    refine .inr ⟨_, ?_, s.draws + 1, rfl⟩
    have hlt : (drawPick (rest.length + 2) s).1 < (k :: k' :: rest).length := Nat.mod_lt _ (Nat.succ_pos _)
    rw [List.getD_eq_getElem _ _ hlt]
    exact List.getElem_mem _

/-- An offer that decodes goes into service. -/
theorem acceptFrom_decoded {k : Nat} {s : State PinId} {r : Request} {i : Instr} (hr : offered k s = some r)
    (hi : decode (.request r) = .ok i) :
    acceptFrom k s = .accept { takeOffer k s with service := some { requester := some k, item := .request r } } := by
  simp [acceptFrom, hr, hi]

/-- Where an `Active` waits, the turn answers one. -/
theorem turn_waitingActive {s : State PinId} (h : waitingActive s ≠ []) :
    ∃ k ∈ waitingActive s, ∃ d, turn s = .run .reqActive { takeOffer k s with draws := d } := by
  rcases pickOne_cases (waitingActive s) s with ⟨hn, -⟩ | ⟨k, hk, d, hp⟩
  · exact absurd hn h
  · exact ⟨k, hk, d, by simp only [turn, hp]; rfl⟩

/-- Where none waits, the turn is the service's. -/
theorem turn_of_noActive {s : State PinId} (h : waitingActive s = []) : turn s = serviceTurn s := by
  simp [turn, h, pickOne]

/-- Every turn of the port: idle; a request taken into service, the port being free and no `Active` waiting; a waiting
`Active` answered; the item in service run to its end, no `Active` waiting; or something refused because it does not
decode. -/
theorem turn_cases (s : State PinId) :
    (turn s = .idle ∧ s.service = none ∧ waiting s = []) ∨
    (∃ k r i d, s.service = none ∧ waitingActive s = [] ∧ k ∈ waiting s ∧ offered k s = some r ∧
      decode (.request r) = .ok i ∧
      turn s = .accept
        { takeOffer k s with service := some { requester := some k, item := .request r }, draws := d }) ∨
    (∃ k d, k ∈ waitingActive s ∧ turn s = .run .reqActive { takeOffer k s with draws := d }) ∨
    (∃ sv i, s.service = some sv ∧ waitingActive s = [] ∧ decode sv.item = .ok i ∧
      turn s = .run i { s with service := none }) ∨
    ∃ why, turn s = .refuse (.undecodable why) := by
  by_cases ha : waitingActive s = []
  · rw [turn_of_noActive ha]
    cases hsv : s.service with
    | none =>
      rcases pickOne_cases (waiting s) s with ⟨hw, hp⟩ | ⟨k, hk, d, hp⟩
      · exact .inl ⟨by simp only [serviceTurn, hsv, hp], rfl, hw⟩
      · obtain ⟨r, hr⟩ := offered_of_waiting hk
        have ht : serviceTurn s = acceptFrom k { s with draws := d } := by simp only [serviceTurn, hsv, hp]
        have hr' : offered k { s with draws := d } = some r := hr
        rw [ht]
        cases hd : decode (.request r) with
        | error why => exact .inr (.inr (.inr (.inr ⟨why, by simp [acceptFrom, hr', hd]⟩)))
        | ok i => exact .inr (.inl ⟨k, r, i, d, rfl, ha, hk, hr, hd, acceptFrom_decoded hr' hd⟩)
    | some sv =>
      have ht : serviceTurn s = serve sv s := by simp only [serviceTurn, hsv]
      rw [ht, serve]
      split
      · exact .inr (.inr (.inr (.inr ⟨_, rfl⟩)))
      · next i hi => exact .inr (.inr (.inr (.inl ⟨sv, i, rfl, ha, hi, rfl⟩)))
  · obtain ⟨k, hk, d, ht⟩ := turn_waitingActive ha
    exact .inr (.inr (.inl ⟨k, d, hk, ht⟩))

end Sys2Proof.Machine
end

