-- ==== Sys2Proof/Laws/Emits.lean ====
section
/-! SUPPORT. What each request adds to the trace, said once for every state (`Emits`, `exec_emits`), and the words the
initialization sequence, the blanking of the lines and the commands of `Close` send. -/

namespace Sys2Proof.Machine

variable {PinId : Type}

/-- The events a request adds to the trace of a state. -/
inductive Emits (s : State PinId) : Instr → List Event → Prop where
  | silent (i : Instr) (h : i = .reqOpen → s.active = true ∨ (drawAcquire s).1 = false)
      (k : i = .reqReset → s.active = false) : Emits s i []
  | opens (h : s.active = false) (k : (drawAcquire s).1 = true) :
      Emits s .reqOpen
        ([.acq, .low] ++ (if s.isI2c then [.bl s.cfg.switches.backlightAtOpen] else []) ++ initSeq s.cfg)
  | closes (h : s.active = true) :
      Emits s .reqClose
        (clearLines s.cfg.geometry ++ closeCommands s.cfg ++ (if s.isI2c then [.bl false] else []) ++ [.low, .rel])
  | resets (h : s.active = true) : Emits s .reqReset (initSeq s.cfg)
  | clears (h : s.active = true) : Emits s .reqClear (clearLines s.cfg.geometry)
  | displays (line : Int) (text : Text) (h : s.active = true) (k : inRange s.cfg.geometry line = true) :
      Emits s (.reqDisplay line text)
        (lineWrite (lineAddr s.cfg.geometry line.toNat) (Machine.normalize s.cfg.geometry.width text))
  | draws (position : Byte) (definition : Text) (h : s.active = true) (k : definition.length = 8) :
      Emits s (.reqSetChar position definition) (glyphWrite position definition)
  | lights (h : s.active = true) (k : s.isI2c = true) : Emits s .reqToggleBacklight [.bl (!readBacklight s)]

theorem openWith_trace (s : State PinId) :
    (openWith true s).trace =
      s.trace ++ ([.acq, .low] ++ (if s.isI2c then [.bl s.cfg.switches.backlightAtOpen] else []) ++ initSeq s.cfg) := by
  cases h : s.isI2c <;> simp [openWith, h]

theorem closeActive_trace (s : State PinId) :
    (closeActive s).trace =
      s.trace ++ (clearLines s.cfg.geometry ++ closeCommands s.cfg ++ (if s.isI2c then [.bl false] else []) ++
        [.low, .rel]) := by
  cases h : s.isI2c <;> simp [closeActive, h]

/-- `Open` emits. -/
theorem execReqOpen_emits {s t : State PinId} (h : execReqOpen s = .next t) :
    ∃ evs, t.trace = s.trace ++ evs ∧ Emits s .reqOpen evs := by
  cases h
  by_cases ha : s.active = true
  · exact ⟨[], by simp [ha], .silent _ (fun _ => .inl ha) (by simp)⟩
  · by_cases hd : (drawAcquire s).1 = true
    · refine ⟨_, ?_, .opens (by simpa using ha) hd⟩
      simp [ha, hd, openWith_trace]
    · simp only [Bool.not_eq_true] at hd
      exact ⟨[], by simp [ha, hd, openWith], .silent _ (fun _ => .inr hd) (by simp)⟩

/-- `Display` emits. -/
theorem execReqDisplay_emits {line : Int} {text : Text} {s t : State PinId} (h : execReqDisplay line text s = .next t) :
    ∃ evs, t.trace = s.trace ++ evs ∧ Emits s (.reqDisplay line text) evs := by
  cases h
  by_cases ha : (s.active && inRange s.cfg.geometry line) = true
  · simp only [ha, if_true, displayLine]
    split
    · exact ⟨[], by simp, .silent _ (by simp) (by simp)⟩
    · simp only [Bool.and_eq_true] at ha
      exact ⟨_, by simp, .displays _ _ ha.1 ha.2⟩
  · exact ⟨[], by simp [ha], .silent _ (by simp) (by simp)⟩

/-- `SetChar` emits. -/
theorem execReqSetChar_emits {position : Byte} {definition : Text} {s t : State PinId}
    (h : execReqSetChar position definition s = .next t) :
    ∃ evs, t.trace = s.trace ++ evs ∧ Emits s (.reqSetChar position definition) evs := by
  cases h
  by_cases hl : definition.length = 8
  · by_cases ha : s.active = true
    · exact ⟨_, by simp [hl, glyphRows, ha], .draws _ _ ha hl⟩
    · exact ⟨[], by simp [hl, glyphRows, ha], .silent _ (by simp) (by simp)⟩
  · exact ⟨[], by simp [hl, glyphRows], .silent _ (by simp) (by simp)⟩

/-- The requests that the flag `active` alone decides, and `Active`. -/
theorem execReqClose_emits {s t : State PinId} (h : execReqClose s = .next t) :
    ∃ evs, t.trace = s.trace ++ evs ∧ Emits s .reqClose evs := by
  cases h
  by_cases ha : s.active = true
  · exact ⟨_, by simp only [ha, if_true, closeActive_trace], .closes ha⟩
  · exact ⟨[], by simp [ha], .silent _ (by simp) (by simp)⟩

@[inherit_doc execReqClose_emits]
theorem execReqReset_emits {s t : State PinId} (h : execReqReset s = .next t) :
    ∃ evs, t.trace = s.trace ++ evs ∧ Emits s .reqReset evs := by
  cases h
  by_cases ha : s.active = true
  · refine ⟨_, ?_, .resets ha⟩
    simp only [ha, if_true, resetActive]
    split <;> simp
  · exact ⟨[], by simp [ha], .silent _ (by simp) (fun _ => by simpa using ha)⟩

@[inherit_doc execReqClose_emits]
theorem execReqClear_emits {s t : State PinId} (h : execReqClear s = .next t) :
    ∃ evs, t.trace = s.trace ++ evs ∧ Emits s .reqClear evs := by
  cases h
  by_cases ha : s.active = true
  · exact ⟨_, by simp [ha], .clears ha⟩
  · exact ⟨[], by simp [ha], .silent _ (by simp) (by simp)⟩

@[inherit_doc execReqClose_emits]
theorem execReqToggleBacklight_emits {s t : State PinId} (h : execReqToggleBacklight s = .next t) :
    ∃ evs, t.trace = s.trace ++ evs ∧ Emits s .reqToggleBacklight evs := by
  cases h
  by_cases ha : (s.isI2c && s.active) = true
  · simp only [Bool.and_eq_true] at ha
    exact ⟨_, by simp [ha], .lights ha.2 ha.1⟩
  · exact ⟨[], by simp [ha], .silent _ (by simp) (by simp)⟩

@[inherit_doc execReqClose_emits]
theorem execReqActive_emits {s t : State PinId} (h : execReqActive s = .next t) :
    ∃ evs, t.trace = s.trace ++ evs ∧ Emits s .reqActive evs := by
  cases h
  exact ⟨[], by simp, .silent _ (by simp) (by simp)⟩

/-! ### The words of the shared runs -/

theorem Sends.initSeq (c : Config PinId) :
    Sends (initSeq c)
      [some (.nib4 0x03), some (.nib4 0x03), some (.nib4 0x03), some (.nib4 0x02), some (.byte8 0x028),
       some (.byte8 0x00C), some (.byte8 0x006), some (.byte8 0x001)] := by
  have h := ((((Sends.write4Bits c 3 false).append (.wait .initLong)).append
    ((Sends.write4Bits c 3 false).append (.wait .initShort))).append
      ((Sends.write4Bits c 3 false).append (.wait .initShort))).append
        ((Sends.write4Bits c 2 false).append (.wait .initShort))
  have k := h.append ((((Sends.command 0x28).append (.command 0x0C)).append (.command 0x06)).append Sends.clearCommand)
  simp only [Machine.initSeq, List.append_assoc] at k ⊢
  exact k

theorem Sends.clearLines (g : Geometry) :
    Sends (clearLines g)
      ((lineTable g).flatMap fun a =>
        some (.byte8 (0#1 ++ a)) :: (blankLine g.width).map fun b => some (.byte8 (1#1 ++ b))) := by
  unfold Machine.clearLines
  induction lineTable g with
  | nil => exact Sends.nil
  | cons a as ih => rw [List.flatMap_cons, List.flatMap_cons]; exact (Sends.lineWrite _ _).append ih

theorem Sends.closeCommands (c : Config PinId) :
    Sends (closeCommands c) [some (.byte8 0x001), some (.byte8 (0#1 ++ c.switches.displayOffCmd))] := by
  unfold Machine.closeCommands
  split
  · exact Sends.clearCommand.append (Sends.command _)
  · exact (Sends.command 0x01).append (Sends.command _)

end Sys2Proof.Machine
end

