-- ==== Sys2Proof/Laws/Exec.lean ====
section
/-! SUPPORT. What every instruction leaves alone of the port: `exec` runs inside one turn, so it neither accepts an offer
nor puts anything into service. -/

namespace Sys2Proof.Machine

/-- `exec` leaves the requesters' queues and what is in service as they were. -/
theorem exec_port {i : Instr} {s t : State} (h : exec i s = .next t) :
    t.service = s.service ∧ t.requesters = s.requesters := by
  cases i <;>
    simp only [exec, execReqOpen, execReqClose, execReqReset, execReqClear, execReqDisplay, execReqSetChar,
      execReqToggleBacklight, execReqActive, execOutInitNibble3, execOutInitNibble2, execOutFunctionSet,
      execOutDisplayOn, execOutEntryMode, execOutClearDisplay, execOutDisplayOff, execOutSetDdramAddr,
      execOutSetCgramAddr, execOutWriteData, Host.Outcome.next.injEq] at h <;>
    subst h <;> (repeat' split) <;>
    simp [openWith, closeActive, resetActive, displayLine] <;> (repeat' split) <;> simp

end Sys2Proof.Machine
end

