-- ==== Sys2Proof/Laws/PerInstr.lean ====
section
/-! SUPPORT. The family TableRow: the word an instruction is encoded as agrees with its row of spec/opcode_table.json,
in the fixed bits the row gives (match under mask), and goes to the row's port. -/

namespace Sys2Proof.Laws.TableRow

/-- The row's port and word length, with its match and its mask. -/
structure Row where
  bits : Nat
  fixed : Nat
  mask : Nat
  deriving DecidableEq, Repr

/-- The row of spec/opcode_table.json: a request's 4-bit op, a `NIB4` word of 5 bits, a `BYTE8` word of 9. -/
def row : Instr → Row
  | .reqOpen => { bits := 4, fixed := 0x1, mask := 0xF }
  | .reqClose => { bits := 4, fixed := 0x2, mask := 0xF }
  | .reqReset => { bits := 4, fixed := 0x3, mask := 0xF }
  | .reqClear => { bits := 4, fixed := 0x4, mask := 0xF }
  | .reqDisplay _ _ => { bits := 4, fixed := 0x5, mask := 0xF }
  | .reqSetChar _ _ => { bits := 4, fixed := 0x6, mask := 0xF }
  | .reqToggleBacklight => { bits := 4, fixed := 0x7, mask := 0xF }
  | .reqActive => { bits := 4, fixed := 0x8, mask := 0xF }
  | .outInitNibble3 => { bits := 5, fixed := 0x03, mask := 0x1F }
  | .outInitNibble2 => { bits := 5, fixed := 0x02, mask := 0x1F }
  | .outFunctionSet => { bits := 9, fixed := 0x028, mask := 0x1FF }
  | .outDisplayOn => { bits := 9, fixed := 0x00C, mask := 0x1FF }
  | .outEntryMode => { bits := 9, fixed := 0x006, mask := 0x1FF }
  | .outClearDisplay => { bits := 9, fixed := 0x001, mask := 0x1FF }
  | .outDisplayOff => { bits := 9, fixed := 0x008, mask := 0x1FF }
  | .outSetDdramAddr _ => { bits := 9, fixed := 0x080, mask := 0x180 }
  | .outSetCgramAddr _ => { bits := 9, fixed := 0x040, mask := 0x1C0 }
  | .outWriteData _ => { bits := 9, fixed := 0x100, mask := 0x100 }

/-- The length and the number of a port item's word. -/
def word : PortItem → Nat × Nat
  | .request r => (4, r.op.toNat)
  | .nib4 v => (5, v.toNat)
  | .byte8 v => (9, v.toNat)

/-- The instruction's word is as long as its row says and has the row's fixed bits. -/
def Statement (i : Instr) : Prop :=
  (word (encode i)).1 = (row i).bits ∧ (word (encode i)).2 &&& (row i).mask = (row i).fixed

theorem reqOpen : Statement .reqOpen := by unfold Statement; decide
theorem reqClose : Statement .reqClose := by unfold Statement; decide
theorem reqReset : Statement .reqReset := by unfold Statement; decide
theorem reqClear : Statement .reqClear := by unfold Statement; decide
theorem reqDisplay (line : Int) (text : Text) : Statement (.reqDisplay line text) :=
  ⟨rfl, (by decide : (0x5#4).toNat &&& 0xF = 0x5)⟩
theorem reqSetChar (position : Byte) (definition : Text) : Statement (.reqSetChar position definition) :=
  ⟨rfl, (by decide : (0x6#4).toNat &&& 0xF = 0x6)⟩
theorem reqToggleBacklight : Statement .reqToggleBacklight := by unfold Statement; decide
theorem reqActive : Statement .reqActive := by unfold Statement; decide
theorem outInitNibble3 : Statement .outInitNibble3 := by unfold Statement; decide
theorem outInitNibble2 : Statement .outInitNibble2 := by unfold Statement; decide
theorem outFunctionSet : Statement .outFunctionSet := by unfold Statement; decide
theorem outDisplayOn : Statement .outDisplayOn := by unfold Statement; decide
theorem outEntryMode : Statement .outEntryMode := by unfold Statement; decide
theorem outClearDisplay : Statement .outClearDisplay := by unfold Statement; decide
theorem outDisplayOff : Statement .outDisplayOff := by unfold Statement; decide
theorem outSetDdramAddr (a : BitVec 7) : Statement (.outSetDdramAddr a) := by revert a; unfold Statement; decide
theorem outSetCgramAddr (a : BitVec 6) : Statement (.outSetCgramAddr a) := by revert a; unfold Statement; decide
theorem outWriteData (d : Byte) : Statement (.outWriteData d) := by revert d; unfold Statement; decide

end Sys2Proof.Laws.TableRow
end

