-- ==== Sys2Proof/Tests/Slice0.lean ====
section
/-! SUPPORT. Tests against spec/95_test_vectors.md (vectors V-*, programs P1 to P5) and the rules' own examples; every
expected value is the spec's. -/

namespace Sys2Proof.Tests

open Sys2Proof.Machine

/-! ## Small states -/

/-- The configuration of an I2C block at 0x27 (V-G2). -/
def i2cConfig : Config := { Config.default with transport := .i2c 0x27 }

/-- The lines after a successful `Open`: 0, 0, 1, 0, 0, 0 (V-O1). -/
def openedLines : Lines := { rs := .low, e := .low, d4 := .high, d5 := .low, d6 := .low, d7 := .low }

/-- An active block with an empty cache. -/
def opened (c : Config) : State := { State.fresh c with active := true, lines := openedLines }

/-- A fresh block whose next acquisition succeeds or fails. -/
def answering (c : Config) (ok : Bool) : State := { State.fresh c with acquireAnswers := [ok] }

/-- The state an outcome goes on to. -/
def stateOf (o : Host.Outcome State Fault Refusal) : Option State :=
  match o with
  | .next s => some s
  | .refused _ => none

/-- What an instruction leaves of a state, through `f`. -/
def leaves {α : Type} (i : Instr) (s : State) (f : State → α) : Option α := (stateOf (exec i s)).map f

/-- The character codes of a text of ASCII characters (95, section 0). -/
def ascii (t : String) : Text := t.toList.map fun c => BitVec.ofNat 8 c.toNat

/-- `Hi` followed by 14 spaces (V-D1). -/
def hiLine : Text := [0x48, 0x69, 0x20, 0x20, 0x20, 0x20, 0x20, 0x20, 0x20, 0x20, 0x20, 0x20, 0x20, 0x20, 0x20, 0x20]

/-- A glyph (43 R101, example). -/
def glyph : Text := [0x00, 0x0A, 0x1F, 0x1F, 0x0E, 0x04, 0x00, 0x00]

/-- The output instructions a trace shows, from the lines of an opened block. -/
def shown (s : State) : List Instr := outputInstrs openedLines s.trace

/-! ## WellFormed: each check, and a term it refuses (V-G2) -/

def rawGpio (w l : Nat) : RawConfig :=
  { transport := .gpio { rs := 1, e := 2, d4 := 3, d5 := 4, d6 := 5, d7 := 6 }, width := w, lines := l,
    timing := Timing.default, switches := Switches.default }

def rawI2c (a : Byte) : RawConfig := { rawGpio 20 4 with transport := .i2c a }

theorem test_wf_accepts : (rawGpio 16 2).wf = true ∧ (rawI2c 0x27).wf = true ∧ (rawI2c 0x7F).wf = true := by decide
theorem test_wf_refuses_20x2 : (rawGpio 20 2).wf = false := by decide
theorem test_wf_refuses_16x3 : (rawGpio 16 3).wf = false := by decide
theorem test_wf_refuses_bit7 : (rawI2c 0x80).wf = false := by decide
theorem test_wf_refuses_equal_pins :
    { rawGpio 16 2 with transport := .gpio { rs := 1, e := 3, d4 := 3, d5 := 4, d6 := 5, d7 := 6 } }.wf = false := by
  decide
theorem test_wf_refuses_wide_line :
    (Instr.reqDisplay 2147483648 []).wf = false ∧ (Instr.reqDisplay (-2147483648) []).wf = true := by decide
theorem test_config_wf_refuses_equal_pins :
    { Config.default with transport := .gpio { rs := 1, e := 1, d4 := 3, d5 := 4, d6 := 5, d7 := 6 } }.wf = false := by
  decide
theorem test_construct_refuses_20x2 : construct (rawGpio 20 2) = .refused (.unsupportedGeometry 20 2) := by rfl
theorem test_construct_refuses_bit7 : construct (rawI2c 0x80) = .refused (.busAddressNotSevenBits 0x80) := by rfl
theorem test_construct_16x2 : construct (rawGpio 16 2) = .next State.reset := by rfl

/-- Pin identifiers of any type with decidable equality (R19). -/
theorem test_construct_char_pins :
    (construct { rawGpio 16 2 with
        transport := .gpio { rs := 'a', e := 'b', d4 := 'c', d5 := 'd', d6 := 'e', d7 := 'a' } } :
      Host.Outcome (State Char) Fault Refusal) = .refused .pinsNotDistinct := by rfl

/-! ## Decoding: words written out from the encodings (V-E1, V-E2, V-D3) -/

theorem test_decode_open : decode (.request { op := 0b0001, operands := .none }) = .ok .reqOpen := by rfl
theorem test_decode_close : decode (.request { op := 0b0010, operands := .none }) = .ok .reqClose := by rfl
theorem test_decode_reset : decode (.request { op := 0b0011, operands := .none }) = .ok .reqReset := by rfl
theorem test_decode_clear : decode (.request { op := 0b0100, operands := .none }) = .ok .reqClear := by rfl
theorem test_decode_display_negative :
    decode (.request { op := 0b0101, operands := .lineText (.field 0xFFFFFFFF) [0x5A] }) = .ok (.reqDisplay (-1) [0x5A]) := by
  rfl
theorem test_decode_display_lowest :
    decode (.request { op := 0b0101, operands := .lineText (.field 0x80000000) [] }) =
      .ok (.reqDisplay (-2147483648) []) := by rfl
theorem test_decode_setchar :
    decode (.request { op := 0b0110, operands := .glyph 0x01 [0x1F] }) = .ok (.reqSetChar 0x01 [0x1F]) := by rfl
theorem test_decode_toggle : decode (.request { op := 0b0111, operands := .none }) = .ok .reqToggleBacklight := by rfl
theorem test_decode_active : decode (.request { op := 0b1000, operands := .none }) = .ok .reqActive := by rfl
theorem test_decode_reserved :
    decode (.request { op := 0b1100, operands := .none }) = .error (.reservedOp 0xC) ∧
      decode (.request { op := 0b0000, operands := .none }) = .error (.reservedOp 0x0) := ⟨rfl, rfl⟩
theorem test_decode_wrong_operands :
    decode (.request { op := 0b0101, operands := .none }) = .error (.operandsNotOfOp 0x5) := by rfl
theorem test_decode_init_nibble_3 : decode (.nib4 0b00011) = .ok .outInitNibble3 := by rfl
theorem test_decode_init_nibble_2 : decode (.nib4 0b00010) = .ok .outInitNibble2 := by rfl
theorem test_decode_nibble_unlisted : decode (.nib4 0b10011) = .error (.unlistedNibble 0b10011) := by rfl
theorem test_decode_function_set : decode (.byte8 0b000101000) = .ok .outFunctionSet := by rfl
theorem test_decode_display_on : decode (.byte8 0b000001100) = .ok .outDisplayOn := by rfl
theorem test_decode_entry_mode : decode (.byte8 0b000000110) = .ok .outEntryMode := by rfl
theorem test_decode_clear_display : decode (.byte8 0b000000001) = .ok .outClearDisplay := by rfl
theorem test_decode_display_off : decode (.byte8 0b000001000) = .ok .outDisplayOff := by rfl
theorem test_decode_set_ddram : decode (.byte8 0b011010100) = .ok (.outSetDdramAddr 0x54) := by rfl
theorem test_decode_set_cgram : decode (.byte8 0b001001000) = .ok (.outSetCgramAddr 0x08) := by rfl
theorem test_decode_write_data : decode (.byte8 0b101101111) = .ok (.outWriteData 0x6F) := by rfl
theorem test_decode_byte_unlisted : decode (.byte8 0b000000010) = .error (.unlistedByte 0x002) := by rfl
theorem test_table_words :
    decodeTableWord 8 1 = some .reqOpen ∧ decodeTableWord 8 5 = some (.reqDisplay 0 []) ∧
      decodeTableWord 16 0x1FF = some (.outWriteData 0xFF) ∧ decodeTableWord 5 3 = some .outInitNibble3 ∧
      decodeTableWord 8 0 = none := by decide

/-! ## Framer (V-F1 to V-F6) -/

theorem test_pulse_0xA :
    pulse 0xA = [.pin .d4 false, .pin .d5 true, .pin .d6 false, .pin .d7 true, .wait .pulse, .pin .e true, .wait .pulse,
      .pin .e false, .wait .pulse] := by decide
theorem test_write4Bits_ignores_high : write4Bits Config.default 0xF2 false = write4Bits Config.default 0x2 false := by
  decide
theorem test_writeByte_0x28_latches :
    latchesFrom openedLines (writeByte 0x28 false) = [{ rs := false, nibble := 0x2 }, { rs := false, nibble := 0x8 }] := by
  decide
theorem test_initSeq_latches :
    (latchesFrom (allLines .low) (initSeq Config.default)).map (·.nibble) =
      [0x3, 0x3, 0x3, 0x2, 0x2, 0x8, 0x0, 0xC, 0x0, 0x6, 0x0, 0x1] := by decide +kernel
theorem test_initSeq_counts :
    (initSeq Config.default).length = 129 ∧ pinCount (initSeq Config.default) = 80 ∧
      waitCount (initSeq Config.default) = 49 := by decide +kernel
theorem test_initSeq_min_wait : minWait Timing.default (initSeq Config.default) = 10956000 := by decide +kernel
theorem test_initSeq_keeps_hazards : Safety.KeepsHazards Config.default (allLines .low) (initSeq Config.default) := by
  unfold Safety.KeepsHazards; decide +kernel

/-! ## One instruction each -/

theorem test_open :
    leaves .reqOpen (answering Config.default true) (fun s => (s.active, s.trace.length, s.lines, s.responses)) =
      some (true, 131, openedLines, [{ code := .ok, value := none }]) := by decide +kernel
theorem test_open_fails :
    stateOf (exec .reqOpen (answering i2cConfig false)) =
      some { State.fresh i2cConfig with responses := [{ code := .transportUnavailable, value := none }] } := by decide
theorem test_close :
    leaves .reqClose (opened Config.default) (fun s => (s.active, s.trace.length, s.lines)) =
        some (false, 723, Lines.released) ∧
      leaves .reqClose (opened Config.default) (·.cache) = some [some (blankLine 16), some (blankLine 16)] := by
  decide +kernel
theorem test_close_i2c_writes :
    leaves .reqClose { opened i2cConfig with backlight := true } (fun s => (s.backlight, physicalWrites s.trace)) =
      some (false, 470) := by decide +kernel
theorem test_reset_keeps_cache :
    leaves .reqReset { opened Config.default with cache := [some hiLine, none] } (fun s => (s.cache, s.trace.length)) =
      some ([some hiLine, none], 129) := by decide +kernel
theorem test_clear :
    leaves .reqClear (opened Config.default) shown =
      some (.outSetDdramAddr 0x00 :: List.replicate 16 (.outWriteData 0x20) ++
        .outSetDdramAddr 0x40 :: List.replicate 16 (.outWriteData 0x20)) := by decide +kernel
theorem test_display_miss :
    leaves (.reqDisplay 1 [0x48, 0x69]) (opened Config.default) shown =
      some (.outSetDdramAddr 0x40 :: hiLine.map .outWriteData) := by decide +kernel
theorem test_display_hit :
    leaves (.reqDisplay 0 [0x48, 0x69, 0x20]) { opened Config.default with cache := [some hiLine, none] } (·.trace) =
      some [] := by decide
theorem test_setchar :
    leaves (.reqSetChar 1 glyph) (opened Config.default) (fun s => addressedWrites openedLines s.trace) =
      some ((glyph.zipIdx 8).map fun p => { space := .cgram, address := p.2, value := p.1 }) := by decide +kernel
theorem test_setchar_seven_rows :
    leaves (.reqSetChar 1 [0x1F, 0x1F, 0x1F, 0x1F, 0x1F, 0x1F, 0x1F]) (State.fresh i2cConfig)
      (fun s => (s.trace, s.responses)) = some ([], [{ code := .invalidGlyphDefinition, value := none }]) := by decide
theorem test_toggle :
    leaves .reqToggleBacklight { opened i2cConfig with backlight := true } (fun s => (s.backlight, s.trace)) =
      some (false, [.bl false]) := by decide
theorem test_toggle_gpio :
    leaves .reqToggleBacklight (opened Config.default) (fun s => (s.backlight, s.trace)) = some (false, []) := by decide
theorem test_active :
    leaves .reqActive (opened Config.default) (·.responses) = some [{ code := .ok, value := some true }] := by decide
theorem test_init_nibble_3 :
    leaves .outInitNibble3 State.reset (fun s => latchesFrom Lines.released s.trace) =
      some [{ rs := false, nibble := 0x3 }] := by decide
theorem test_init_nibble_2 :
    leaves .outInitNibble2 State.reset (fun s => latchesFrom Lines.released s.trace) =
      some [{ rs := false, nibble := 0x2 }] := by decide
theorem test_function_set : leaves .outFunctionSet (opened Config.default) shown = some [.outFunctionSet] := by decide
theorem test_display_on : leaves .outDisplayOn (opened Config.default) shown = some [.outDisplayOn] := by decide
theorem test_entry_mode : leaves .outEntryMode (opened Config.default) shown = some [.outEntryMode] := by decide
theorem test_clear_display :
    leaves .outClearDisplay (opened Config.default) (fun s => (shown s, s.trace.getLast?)) =
      some ([.outClearDisplay], some (.wait .clear)) := by decide
theorem test_display_off : leaves .outDisplayOff (opened Config.default) shown = some [.outDisplayOff] := by decide
theorem test_set_ddram :
    leaves (.outSetDdramAddr 0x54) (opened Config.default) (fun s => latchesFrom openedLines s.trace) =
      some [{ rs := false, nibble := 0xD }, { rs := false, nibble := 0x4 }] := by decide
theorem test_set_cgram :
    leaves (.outSetCgramAddr 0x08) (opened Config.default) (fun s => latchesFrom openedLines s.trace) =
      some [{ rs := false, nibble := 0x4 }, { rs := false, nibble := 0x8 }] := by decide
theorem test_write_data :
    leaves (.outWriteData 0x6F) (opened Config.default) (fun s => latchesFrom openedLines s.trace) =
      some [{ rs := true, nibble := 0x6 }, { rs := true, nibble := 0xF }] := by decide

/-! ## Operands, segments, notation, rendering -/

theorem test_glyph_commands :
    ([0, 1, 7, 8, 15, 16, 23, 24, 25, 31, 32, 255].map fun n => glyphCommand (BitVec.ofNat 8 n)) =
      [0x40, 0x48, 0x78, 0x80, 0xB8, 0xC0, 0xF8, 0x00, 0x08, 0x38, 0x40, 0x38] := by decide
theorem test_split :
    splitLines [0x41, 0x0D, 0x0A, 0x42] = [[0x41, 0x0D], [0x42]] ∧ splitLines [] = [[]] ∧
      splitLines [0x0A] = [[], []] := by decide
theorem test_displayLines :
    displayLines (ascii "A\n\nB") = [displayRequest [0x41] 0, displayRequest [] 1, displayRequest [0x42] 2] := by decide
theorem test_parse_display :
    parseRequests "Display(-1, \"\\x01 ok\")".toList =
      some [{ op := 0x5, operands := .lineText (.int (-1)) [0x01, 0x20, 0x6F, 0x6B] }] := by decide
theorem test_parse_setchar :
    parseRequests "SetChar(0x1, [0x00, 31])".toList = some [{ op := 0x6, operands := .glyph 0x01 [0x00, 0x1F] }] := by
  decide
theorem test_parse_no_spaces :
    parseRequests "SetChar(2, [1,2,3,4,5,6,7])".toList =
        some [{ op := 0x6, operands := .glyph 2 [1, 2, 3, 4, 5, 6, 7] }] ∧
      parseRequests "SetChar(1, [0x00,0x0A,0x1F,0x1F,0x0E,0x04,0x00,0x00])".toList =
        some [{ op := 0x6, operands := .glyph 1 glyph }] ∧
      parseRequests "Display(0,\"A\")".toList = some [{ op := 0x5, operands := .lineText (.int 0) [0x41] }] := by
  decide
theorem test_render_bytes :
    busBytes (expanderCalls Timing.default 0x27 openedLines true (character 0x48)) =
      [0x19, 0x09, 0x09, 0x49, 0x49, 0x4D, 0x49, 0x49, 0x49, 0x09, 0x89, 0x8D, 0x89] := by decide
theorem test_render_open_start :
    (busBytes (expanderCalls Timing.default 0x27 Lines.released false
      ([.acq, .low, .bl true] ++ initSeq Config.default))).take 9 =
      [0x00, 0x08, 0x08, 0x18, 0x38, 0x38, 0x38, 0x3C, 0x38] := by decide

/-! ## The port and the step -/

theorem test_step_runs_table_word :
    (stateOf (step (State.reset.withFetchWord 16 0x1FF))).map (fun s => latchesFrom Lines.released s.trace) =
      some [{ rs := true, nibble := 0xF }, { rs := true, nibble := 0xF }] := by decide
theorem test_step_accepts :
    stateOf (step (State.reset.offer 0 { op := 0x4, operands := .none })) =
      some { State.reset with
        requesters := [[]],
        service := some { requester := some 0, item := .request { op := 0x4, operands := .none } } } := by decide
/-- `Active` is answered before the request in service, with the flag of the last completed request, 0 during the first
`Open` (D35, R103). -/
theorem test_active_during_open :
    (stateOf (step { State.reset with
        service := some { requester := some 0, item := .request { op := 0x1, operands := .none } },
        requesters := [[], [{ op := 0x8, operands := .none }]] })).map
      (fun s => (s.busy, s.requesters, s.responses)) =
      some (true, [[], []], [{ code := .ok, value := some false }]) := by decide
/-- `Active` is answered before another waiting request is accepted (R48). -/
theorem test_active_first :
    (stateOf (step { State.reset with
        requesters := [[{ op := 0x1, operands := .none }], [{ op := 0x8, operands := .none }]] })).map
      (fun s => (s.busy, s.requesters, s.responses)) =
      some (false, [[{ op := 0x1, operands := .none }], []], [{ code := .ok, value := some false }]) := by decide
theorem test_step_idle : stateOf (step State.reset) = some State.reset := by decide

end Sys2Proof.Tests
end

