-- ==== Sys2Proof/Tests/Witnesses.lean ====
section
/-! SUPPORT. For every obligation with hypotheses, a concrete state and operands that meet all of them together, clause
by clause and at the ends of the ranges. Nothing here proves an obligation. -/

namespace Sys2Proof.Tests

open Sys2Proof.Machine

/-- The state `exec i s` goes on to. -/
def after (i : Instr) (s : State) : State := (stateOf (exec i s)).getD s

theorem exec_after (i : Instr) (s : State) : exec i s = .next (after i s) := by cases i <;> rfl

/-- A request without operands. -/
def bare (op : BitVec 4) : Request := { op := op, operands := .none }

/-- A state with this request in service and nothing waiting. -/
def serving (r : Request) : State :=
  { State.reset with service := some { requester := some 0, item := .request r }, requesters := [[]] }

/-- An opened block with the trace that opened it. -/
def openedByTrace (c : Config) : State := { opened c with trace := [.acq, .low] ++ initSeq c }

/-- An opened I2C block with the backlight on. -/
def lit : State := { opened i2cConfig with backlight := true }

/-- A text of 16 bytes for both lines of an opened 16x2 block. -/
def filled : State := { opened Config.default with cache := [some hiLine, some hiLine] }

/-- The configuration of a 20x4 block, and of a 16x4 one. -/
def config20x4 : Config := { Config.default with geometry := .g20x4 }

@[inherit_doc config20x4]
def config16x4 : Config := { Config.default with geometry := .g16x4 }

/-! ## Encoding -/

theorem witness_PortFieldRoundTrip :
    (Instr.reqDisplay (-2147483648) []).wf = true ∧ (Instr.reqDisplay 2147483647 []).wf = true ∧
      (Instr.outWriteData 0xFF).wf = true ∧
      (0x7FFFFFFF#32).toNat < 2 ^ 31 ∧ ¬(0x80000000#32).toNat < 2 ^ 31 := by decide

theorem witness_OutputWordsUnambiguous :
    decode (.byte8 0x1FF) = .ok (.outWriteData 0xFF) ∧ decode (.byte8 0x0FF) = .ok (.outSetDdramAddr 0x7F) ∧
      decode (.byte8 0x040) = .ok (.outSetCgramAddr 0) ∧ decode (.nib4 0x02) = .ok .outInitNibble2 :=
  ⟨rfl, rfl, rfl, rfl⟩

theorem witness_ReservedOpsRefused : ∀ op ∈ [(0x0 : BitVec 4), 0x9, 0xF],
    (op = 0 ∨ 9 ≤ op.toNat) ∧
      (serving (bare op)).service = some { requester := some 0, item := .request (bare op) } ∧
      waitingActive (serving (bare op)) = [] ∧
      (State.reset.offer 0 (bare op)).service = none ∧ waiting (State.reset.offer 0 (bare op)) = [0] ∧
      offered 0 (State.reset.offer 0 (bare op)) = some (bare op) := by decide

/-! ## The port and the step -/

theorem witness_StepRunsItemInService :
    (serving (bare 0x4)).service = some { requester := some 0, item := .request (bare 0x4) } ∧
      waitingActive (serving (bare 0x4)) = [] ∧
      decode (.request (bare 0x4)) = .ok .reqClear := ⟨rfl, by decide, rfl⟩

theorem witness_QuiescentBlockWaits : quiescent State.reset = true := by decide

theorem witness_FreePortAccepts :
    (∀ op ∈ [(0x8 : BitVec 4), 0x4],
      (State.reset.offer 1 (bare op)).service = none ∧ waiting (State.reset.offer 1 (bare op)) = [1] ∧
        offered 1 (State.reset.offer 1 (bare op)) = some (bare op)) ∧
      decode (.request (bare 0x8)) = .ok .reqActive ∧ decode (.request (bare 0x4)) = .ok .reqClear :=
  ⟨by decide, rfl, rfl⟩

/-- Two requesters wait, one of them with `Active`. -/
def contended : State := (State.reset.offer 0 (bare 0x4)).offer 1 (bare 0x8)

/-- Two requesters wait, neither with `Active`. -/
def crowded : State := (State.reset.offer 0 (bare 0x4)).offer 1 (bare 0x2)

theorem witness_OneWaitingRequestIsAccepted :
    (contended.service = none ∧ waiting contended = [0, 1] ∧ waitingActive contended = [1]) ∧
      (crowded.service = none ∧ waiting crowded = [0, 1] ∧ waitingActive crowded = []) ∧
      ∀ s ∈ [contended, crowded], ∀ k ∈ [0, 1], ∀ r, offered k s = some r → ∃ i, decode (.request r) = .ok i := by
  refine ⟨by decide, by decide, ?_⟩
  intro s hs k hk r hr
  simp only [List.mem_cons, List.not_mem_nil, or_false] at hs hk
  rcases hs with rfl | rfl <;> rcases hk with rfl | rfl <;> cases hr <;> exact ⟨_, rfl⟩

/-- A request in service, an `Active` waiting at another requester; and the same with two of them waiting. -/
def busyAndAsked : State := { serving (bare 0x4) with requesters := [[], [bare 0x8]] }

@[inherit_doc busyAndAsked]
def busyAndAskedTwice : State := { serving (bare 0x4) with requesters := [[], [bare 0x8], [bare 0x8]] }

/-- A request in service whose own requester has an `Active` to offer next: it is not waiting yet. -/
def busyAndQueued : State := { serving (bare 0x4) with requesters := [[bare 0x8]] }

theorem witness_ActiveNeverWaits :
    busyAndAsked.service = some { requester := some 0, item := .request (bare 0x4) } ∧
      waitingActive busyAndAsked = [1] ∧ waitingActive busyAndAskedTwice = [1, 2] ∧ waitingActive contended = [1] ∧
      waitingActive busyAndQueued = [] := ⟨rfl, by decide, by decide, by decide, by decide⟩

theorem witness_WaitingRequestsNeverDropped : (∃ t, step State.reset = .next t) ∧
    (∃ t, step (State.reset.offer 0 (bare 0x4)) = .next t) ∧ (∃ t, step (serving (bare 0x4)) = .next t) ∧
    ∃ t, step busyAndAsked = .next t := ⟨⟨_, rfl⟩, ⟨_, rfl⟩, ⟨_, rfl⟩, ⟨_, rfl⟩⟩

theorem witness_DecodablePortNeverStops : Spec.PortDecodes (serving (bare 0x4)) ∧ Spec.PortDecodes contended := by
  refine ⟨⟨?_, ?_⟩, ⟨?_, ?_⟩⟩
  · intro q hq r hr
    rcases List.mem_cons.1 hq with rfl | hq
    · cases hr
    · cases hq
  · intro sv hsv; cases hsv; exact ⟨_, rfl⟩
  · have hq : contended.requesters = [[bare 0x4], [bare 0x8]] := by decide
    intro q hq' r hr
    rw [hq] at hq'
    rcases List.mem_cons.1 hq' with rfl | hq'
    · rcases List.mem_cons.1 hr with rfl | hr
      · exact ⟨_, rfl⟩
      · cases hr
    · rcases List.mem_cons.1 hq' with rfl | hq'
      · rcases List.mem_cons.1 hr with rfl | hr
        · exact ⟨_, rfl⟩
        · cases hr
      · cases hq'
  · intro sv hsv; cases hsv

theorem witness_OneResponsePerRequest :
    (exec .reqActive State.reset = .next (after .reqActive State.reset) ∧ Spec.isRequest .reqActive = true) ∧
      exec .outEntryMode State.reset = .next (after .outEntryMode State.reset) ∧ Spec.isRequest .outEntryMode = false :=
  ⟨⟨rfl, rfl⟩, rfl, rfl⟩

theorem witness_TraceOnlyGrows : ∃ t, step (serving (bare 0x8)) = .next t ∧ t.responses ≠ (serving (bare 0x8)).responses :=
  ⟨_, rfl, by decide⟩

/-! ## The requests -/

theorem witness_OpenInitializesInactiveBlock :
    ((answering Config.default true).active = false ∧ (drawAcquire (answering Config.default true)).1 = true) ∧
      ((answering i2cConfig true).active = false ∧ (drawAcquire (answering i2cConfig true)).1 = true) ∧
      (answering i2cConfig true).acquireAnswers = true :: [] ∧ (opened Config.default).active = true :=
  ⟨⟨rfl, rfl⟩, ⟨rfl, rfl⟩, rfl, rfl⟩

theorem witness_OpenTakesEitherAnswer : State.reset.active = false ∧ State.reset.acquireAnswers = [] := ⟨rfl, rfl⟩

theorem witness_TransportUnavailableOnlyFromOpen :
    (exec .reqOpen (answering Config.default false) = .next (after .reqOpen (answering Config.default false)) ∧
      (after .reqOpen (answering Config.default false)).responses =
        (answering Config.default false).responses ++ [{ code := .transportUnavailable, value := none }]) ∧
      ((answering Config.default false).active = false ∧ (answering Config.default false).acquireAnswers = false :: [] ∧
        (drawAcquire (answering Config.default false)).1 = false) ∧
      ∃ s : State, s.active = false ∧ s.acquireAnswers = false :: true :: [] ∧
        exec .reqOpen s = .next (after .reqOpen s) :=
  ⟨⟨rfl, rfl⟩, ⟨rfl, rfl, rfl⟩, { State.reset with acquireAnswers := [false, true] }, rfl, rfl, rfl⟩

theorem witness_InactiveRequestsAreNoOps :
    State.reset.active = false ∧
      ∀ i ∈ [Instr.reqClose, .reqReset, .reqClear, .reqDisplay 0 [], .reqDisplay (-1) [0x41], .reqSetChar 255 glyph,
        .reqToggleBacklight], Spec.isGated i = true := by decide

theorem witness_ResetReinitializes : (opened Config.default).active = true ∧ (opened i2cConfig).active = true := ⟨rfl, rfl⟩

theorem witness_ClearBlanksEveryLine : filled.active = true ∧ (opened config20x4).active = true := ⟨rfl, rfl⟩

theorem witness_CloseShutsDown : filled.active = true ∧ lit.active = true := ⟨rfl, rfl⟩

theorem witness_ResetKeepsRegisters :
    (opened Config.default).cfg.switches.resetInvalidatesCache = false ∧ (opened Config.default).active = true := ⟨rfl, rfl⟩

theorem witness_DisplayMissWritesLineThenCache :
    ((opened Config.default).active = true ∧ (Spec.addressBytes (opened Config.default).cfg.geometry)[0]? = some 0x80 ∧
      (opened Config.default).cache.getD 0 none ≠ some (Spec.shownText 16 [])) ∧
      (filled.active = true ∧ (Spec.addressBytes filled.cfg.geometry)[1]? = some 0xC0 ∧
        filled.cache.getD 1 none ≠ some (Spec.shownText 16 [])) ∧
      ((opened config20x4).active = true ∧ (Spec.addressBytes (opened config20x4).cfg.geometry)[3]? = some 0xD4 ∧
        (opened config20x4).cache.getD 3 none ≠ some (Spec.shownText 20 [])) := by decide

theorem witness_DisplayHitIsSilent :
    (filled.active = true ∧ 1 < filled.cfg.geometry.lines ∧
      filled.cache.getD 1 none = some (Spec.shownText filled.cfg.geometry.width [0x48, 0x69])) ∧
      (opened config16x4).active = true ∧ 3 < (opened config16x4).cfg.geometry.lines ∧
      (opened config16x4).cache.getD 3 none = none := by decide

theorem witness_OutOfRangeLineIsIgnored :
    ((-1 : Int) < 0 ∨ ((opened Config.default).cfg.geometry.lines : Int) ≤ -1) ∧
      ((2 : Int) < 0 ∨ ((opened Config.default).cfg.geometry.lines : Int) ≤ 2) ∧
      ((4 : Int) < 0 ∨ ((opened config20x4).cfg.geometry.lines : Int) ≤ 4) := by decide

theorem witness_SecondDisplayIsSilent : ∀ line ∈ [(0 : Int), 1, 2, -1],
    (opened Config.default).cache.length = (opened Config.default).cfg.geometry.lines ∧
      Spec.shownText (opened Config.default).cfg.geometry.width [0x48] =
        Spec.shownText (opened Config.default).cfg.geometry.width [0x48, 0x20] ∧
      exec (.reqDisplay line [0x48]) (opened Config.default) =
        .next (after (.reqDisplay line [0x48]) (opened Config.default)) :=
  fun _ _ => ⟨by decide, by decide, rfl⟩

theorem witness_ClearFillsAndReopenEmptiesCache :
    (filled.active = true ∧ 1 < filled.cfg.geometry.lines ∧ exec .reqClear filled = .next (after .reqClear filled)) ∧
      ∃ s t u : State, s.active = true ∧ s.acquireAnswers = true :: [] ∧ 1 < s.cfg.geometry.lines ∧
        exec .reqClose s = .next t ∧ exec .reqOpen t = .next u :=
  ⟨⟨rfl, by decide, rfl⟩, { filled with acquireAnswers := [true] }, _, _, rfl, rfl, by decide, rfl, rfl⟩

theorem witness_SetCharWritesGlyph : (opened Config.default).active = true ∧ glyph.length = 8 := ⟨rfl, rfl⟩

theorem witness_InvalidGlyphOnlyFromSetChar :
    (∀ d ∈ [([] : Text), [0, 0, 0, 0, 0, 0, 0], [0, 0, 0, 0, 0, 0, 0, 0, 0]], d.length ≠ 8) ∧
      exec (.reqSetChar 0 []) State.reset = .next (after (.reqSetChar 0 []) State.reset) ∧
      (after (.reqSetChar 0 []) State.reset).responses =
        State.reset.responses ++ [{ code := .invalidGlyphDefinition, value := none }] := ⟨by decide, rfl, rfl⟩

theorem witness_GlyphCommandByPosition :
    (0x07#8).toNat % 32 < 8 ∧ (0xE7#8).toNat % 32 < 8 ∧ (8 ≤ (0x08#8).toNat % 32 ∧ (0x08#8).toNat % 32 < 24) ∧
      (8 ≤ (0x37#8).toNat % 32 ∧ (0x37#8).toNat % 32 < 24) ∧ 24 ≤ (0x18#8).toNat % 32 ∧ 24 ≤ (0xFF#8).toNat % 32 := by
  decide

theorem witness_ToggleBacklightInverts :
    (lit.isI2c = true ∧ lit.active = true) ∧ (opened Config.default).isI2c = false ∧
      ∃ t u, exec .reqToggleBacklight lit = .next t ∧ exec .reqToggleBacklight t = .next u :=
  ⟨⟨rfl, rfl⟩, rfl, _, _, rfl, rfl⟩

theorem witness_ErrorResponsesArePrecise :
    (exec .reqOpen (answering Config.default false) = .next (after .reqOpen (answering Config.default false)) ∧
      (after .reqOpen (answering Config.default false)).responses =
        (answering Config.default false).responses ++ [{ code := .transportUnavailable, value := none }] ∧
      ResponseCode.transportUnavailable ≠ .ok) ∧
      exec (.reqSetChar 0 []) filled = .next (after (.reqSetChar 0 []) filled) ∧
      (after (.reqSetChar 0 []) filled).responses =
        filled.responses ++ [{ code := .invalidGlyphDefinition, value := none }] ∧
      ResponseCode.invalidGlyphDefinition ≠ .ok := ⟨⟨rfl, rfl, by decide⟩, rfl, rfl, by decide⟩

/-! ## Framer, initialization, emitted words -/

theorem witness_InitSequence :
    Config.default.switches.write4Settle = true := rfl

/-- The events an instruction adds, for a state with an empty trace. -/
theorem trace_of_empty (s : State) (h : s.trace = []) (evs : List Event) : evs = s.trace ++ evs := by simp [h]

theorem witness_InitSequenceOncePerOpenOrReset :
    ∀ p ∈ [(Instr.reqOpen, answering Config.default true), (.reqOpen, answering Config.default false),
      (.reqReset, opened Config.default), (.reqReset, State.reset), (.reqClose, opened i2cConfig)],
      Spec.isRequest p.1 = true ∧ exec p.1 p.2 = .next (after p.1 p.2) ∧
        (after p.1 p.2).trace = p.2.trace ++ (after p.1 p.2).trace := by
  intro p hp
  have hr : Spec.isRequest p.1 = true := by revert p; decide
  have ht : p.2.trace = [] := by revert p; decide
  exact ⟨hr, exec_after _ _, trace_of_empty _ ht _⟩

theorem witness_runsInit :
    Spec.runsInit .reqOpen (answering Config.default true) = true ∧ Spec.runsInit .reqReset (opened i2cConfig) = true := by
  decide

/-- A block whose display-off byte is another one, and whose clear wait in `Close` is off. -/
def oddSwitches : State :=
  { filled with cfg := { Config.default with
      switches := { Switches.default with displayOffCmd := 0x0A, closeClearWait := false } } }

theorem witness_RequestsSendOnlyListedWords :
    (∀ p ∈ [(Instr.reqSetChar 7 glyph, opened Config.default), (.reqSetChar 0xE8 glyph, opened config20x4),
      (.reqClose, oddSwitches), (.reqDisplay 1 [], filled)],
      Spec.isRequest p.1 = true ∧ exec p.1 p.2 = .next (after p.1 p.2) ∧
        (after p.1 p.2).trace = p.2.trace ++ (after p.1 p.2).trace) ∧
      oddSwitches.cfg.switches.displayOffCmd ≠ 0x08 ∧ 8 ≤ (0xE8#8).toNat % 32 := by
  refine ⟨?_, by decide, by decide⟩
  intro p hp
  have hr : Spec.isRequest p.1 = true := by revert p; decide
  have ht : p.2.trace = [] := by revert p; decide
  exact ⟨hr, exec_after _ _, trace_of_empty _ ht _⟩

theorem witness_BytesLandInTheirCells :
    (filled.active = true ∧ (Spec.addressBytes filled.cfg.geometry)[1]? = some 0xC0 ∧
      filled.cache.getD 1 none ≠ some (Spec.shownText filled.cfg.geometry.width []) ∧
      exec (.reqDisplay (1 : Nat) []) filled = .next (after (.reqDisplay (1 : Nat) []) filled) ∧
      (after (.reqDisplay (1 : Nat) []) filled).trace =
        filled.trace ++ (after (.reqDisplay (1 : Nat) []) filled).trace) ∧
      (0x07#8).toNat < 8 ∧ glyph.length = 8 ∧
      exec (.reqSetChar 7 glyph) filled = .next (after (.reqSetChar 7 glyph) filled) ∧
      (after (.reqSetChar 7 glyph) filled).trace = filled.trace ++ (after (.reqSetChar 7 glyph) filled).trace :=
  ⟨⟨rfl, rfl, by decide, exec_after _ _, trace_of_empty _ rfl _⟩, by decide, rfl, exec_after _ _,
    trace_of_empty _ rfl _⟩

theorem witness_RequestsKeepHazards :
    ∀ p ∈ [(Instr.reqClose, filled), (.reqOpen, answering i2cConfig true), (.reqReset, lit), (.reqClear, oddSwitches)],
      Spec.isRequest p.1 = true ∧ (p.2.active = true → p.2.lines.e ≠ .high) ∧
        (p.1 = .reqClose → p.2.cfg.switches.closeClearWait = true) ∧
        exec p.1 p.2 = .next (after p.1 p.2) ∧ (after p.1 p.2).trace = p.2.trace ++ (after p.1 p.2).trace := by
  intro p hp
  have hr : Spec.isRequest p.1 = true := by revert p; decide
  have he : p.2.active = true → p.2.lines.e ≠ .high := by revert p; decide
  have hc : p.1 = .reqClose → p.2.cfg.switches.closeClearWait = true := by revert p; decide
  have ht : p.2.trace = [] := by revert p; decide
  exact ⟨hr, he, hc, exec_after _ _, trace_of_empty _ ht _⟩

/-- Every row of R135's table has a state: the switches on, and each row's own conditions. -/
theorem witness_EventCountsAndMinimumWaits :
    (∀ s ∈ [opened Config.default, lit, answering Config.default true, answering Config.default false, filled],
      s.cfg.switches.write4Settle = true ∧ s.cfg.switches.closeClearWait = true) ∧
      (∀ (i : Instr) (s : State), exec i s = .next (after i s)) ∧
      ((answering Config.default true).active = false ∧ (drawAcquire (answering Config.default true)).1 = true) ∧
      (drawAcquire (answering Config.default false)).1 = false ∧ (opened Config.default).active = true ∧
      (inRange (opened Config.default).cfg.geometry 1 = true ∧
        (opened Config.default).cache.getD 1 none ≠ some (Spec.shownText 16 [])) ∧
      inRange (opened Config.default).cfg.geometry 2 = false ∧
      filled.cache.getD 0 none = some (Spec.shownText 16 [0x48, 0x69]) ∧
      glyph.length = 8 ∧ lit.isI2c = true ∧ lit.active = true :=
  ⟨by decide, exec_after, by decide, by decide, rfl, by decide, by decide, by decide, rfl, rfl, rfl⟩

/-! ## Geometry, construction, operands -/

theorem witness_LineAddressTables :
    construct (rawGpio 16 2) = .next State.reset ∧ (∃ s, construct (rawGpio 16 4) = .next s) ∧
      (∃ s, construct (rawI2c 0x27) = .next s) ∧ ∃ t, step (serving (bare 0x4)) = .next t :=
  ⟨rfl, ⟨_, rfl⟩, ⟨_, rfl⟩, _, rfl⟩

theorem witness_LineRangesDisjoint :
    0 < Geometry.lines .g16x2 ∧ 1 < Geometry.lines .g16x2 ∧ 3 < Geometry.lines .g20x4 ∧ (0 : Nat) ≠ 1 ∧ (0 : Nat) ≠ 3 := by
  decide

theorem witness_UnsupportedGeometryRefused : ∀ p ∈ [(20, 2), (16, 3), (17, 2), (0, 0)],
    ((rawGpio p.1 p.2).width, (rawGpio p.1 p.2).lines) ∉ [(16, 2), (16, 4), (20, 4)] := by decide

theorem witness_ConstructionGivesTheStateOfR33 :
    (rawGpio 16 2).wf = true ∧ (rawI2c 0x00).wf = true ∧ (rawI2c 0x7F).wf = true ∧ (rawI2c 0x80).wf = false ∧
      (rawGpio 20 2).wf = false ∧ (rawGpio 16 2).transport = .gpio { rs := 1, e := 2, d4 := 3, d5 := 4, d6 := 5, d7 := 6 } ∧
      (rawI2c 0x7F).transport = .i2c 0x7F := by decide

theorem witness_SplitCutsAtLineBreaks : [] ∈ splitLines [0x0A] ∧ [0x41, 0x0D] ∈ splitLines [0x41, 0x0D, 0x0A] := by decide

theorem witness_DisplayLinesExpands :
    (splitLines [0x41, 0x0A, 0x42])[0]? = some [0x41] ∧ (splitLines [0x41, 0x0A, 0x42])[1]? = some [0x42] ∧
      (splitLines [])[0]? = some [] := by decide

/-! ## Invariants and who writes what -/

theorem witness_FreshStateMeetsInvariant : Config.default.wf = true ∧ i2cConfig.wf = true ∧ config20x4.wf = true := by
  decide

/-- An opened block that has a request waiting meets the invariant, and its step goes on. -/
theorem witness_StepKeepsInvariant :
    Safety.Inv ((openedByTrace Config.default).offer 0 (bare 0x2)) ∧
      ∃ t, step ((openedByTrace Config.default).offer 0 (bare 0x2)) = .next t := by
  refine ⟨⟨by decide, ⟨by decide, ?_⟩, ?_, ⟨?_, ?_⟩, ⟨?_, ?_⟩⟩, _, rfl⟩
  · intro t ht
    have hc : ((openedByTrace Config.default).offer 0 (bare 0x2)).cache = [none, none] := rfl
    rw [hc] at ht
    simp at ht
  · unfold Safety.LinesFollowTrace; decide +kernel
  · decide +kernel
  · intro _
    refine ⟨?_, rfl⟩
    unfold Safety.AllDriven; decide
  · intro h; cases h
  · intro _; rfl

theorem witness_ConfigurationNeverChanges :
    exec .reqOpen (answering i2cConfig true) = .next (after .reqOpen (answering i2cConfig true)) ∧
      ∃ t, step (serving (bare 0x4)) = .next t := ⟨exec_after _ _, _, rfl⟩

theorem witness_ActiveFlag :
    ((after .reqOpen (answering Config.default true)).active ≠ (answering Config.default true).active ∧
      (after .reqOpen (answering Config.default true)).responses =
        (answering Config.default true).responses ++ [Spec.okay]) ∧
      (after .reqClose filled).active ≠ filled.active ∧
      (Spec.isRequest .reqToggleBacklight = true ∧ Instr.reqToggleBacklight ≠ .reqOpen ∧ State.reset.active = false) ∧
      ∀ (i : Instr) (s : State), exec i s = .next (after i s) :=
  ⟨⟨by decide, rfl⟩, by decide, ⟨rfl, by decide, rfl⟩, exec_after⟩

theorem witness_BacklightWriters :
    (after .reqOpen (answering i2cConfig true)).backlight ≠ (answering i2cConfig true).backlight ∧
      (after .reqClose lit).backlight ≠ lit.backlight ∧ (after .reqToggleBacklight lit).backlight ≠ lit.backlight ∧
      State.reset.isI2c = false ∧ lit.isI2c = true ∧ ∀ (i : Instr) (s : State), exec i s = .next (after i s) :=
  ⟨by decide, by decide, by decide, rfl, rfl, exec_after⟩

theorem witness_CacheWriters :
    (after .reqClear filled).cache ≠ filled.cache ∧ (after .reqClose filled).cache ≠ filled.cache ∧
      (after (.reqDisplay 0 []) filled).cache ≠ filled.cache ∧ ((1 : Nat) : Int) ≠ 0 ∧
      (after .reqReset { filled with cfg := { Config.default with
        switches := { Switches.default with resetInvalidatesCache := true } } }).cache ≠ filled.cache ∧
      ∀ (i : Instr) (s : State), exec i s = .next (after i s) :=
  ⟨by decide, by decide, by decide, by decide, by decide, exec_after⟩

/-! ## The two transports -/

theorem witness_BothTransportsSameTrace :
    exec .reqOpen (answering Config.default true) = .next (after .reqOpen (answering Config.default true)) ∧
      (let s : State := { answering Config.default true with
        cfg := { (answering Config.default true).cfg with transport := .i2c 0x27 }, backlight := true }
       exec .reqOpen s = .next (after .reqOpen s)) ∧
      (after .reqToggleBacklight lit).trace = lit.trace ++ [.bl false] ∧ Event.bl false ∈ [Event.bl false] :=
  ⟨exec_after _ _, exec_after _ _, by decide, by decide⟩

theorem witness_ExpanderRendering :
    0x19 ∈ busBytes (expanderCalls Timing.default 0x27 openedLines true (character 0x48)) ∧
      BusCall.write 0x27 0x19 ∈ expanderCalls Timing.default 0x27 openedLines true (character 0x48) ∧
      i2cConfig.transport = .i2c 0x27 ∧ i2cConfig.switches.i2cRender = .expander := by decide

theorem witness_GpioRendering :
    (∀ v, Event.bl v ∉ [Event.low, .pin .e true]) ∧
      GpioCall.set 2 true ∈ gpioCalls Timing.default { rs := 1, e := 2, d4 := 3, d5 := 4, d6 := 5, d7 := 6 }
        [.low, .pin .e true] ∧
      Config.default.transport = .gpio { rs := 1, e := 2, d4 := 3, d5 := 4, d6 := 5, d7 := 6 } ∧
      i2cConfig.transport = .i2c 0x27 := by decide

end Sys2Proof.Tests
end

section
/-! PROOFS. The flag `active` (10_state R22): what each instruction leaves in it, and what it gates. -/

namespace Sys2Proof.Machine

variable {PinId : Type}

/-! ### What the shared runs and the requests leave in `active` -/

/-- A choice between two states that both have the `active` of `s` has it too. -/
theorem ite_active_eq (c : Prop) [Decidable c] {a b s : State PinId} (ha : a.active = s.active)
    (hb : b.active = s.active) : (if c then a else b).active = s.active := by
  split
  · exact ha
  · exact hb

@[simp] theorem openWith_active (ok : Bool) (s : State PinId) : (openWith ok s).active = (ok || s.active) := by
  cases ok <;> rfl

@[simp] theorem closeActive_active (s : State PinId) : (closeActive s).active = false := rfl

@[simp] theorem resetActive_active (s : State PinId) : (resetActive s).active = s.active :=
  (respondOk_active _).trans (ite_active_eq _ (by simp) (by simp))

@[simp] theorem displayLine_active (i : Nat) (text : Text) (s : State PinId) :
    (displayLine i text s).active = s.active :=
  ite_active_eq _ rfl rfl

/-- An `Open` leaves `active` set where it was set or the transport was acquired (43 R96). -/
theorem execReqOpen_active {s t : State PinId} (h : execReqOpen s = .next t) :
    t.active = (s.active || (drawAcquire s).1) := by
  cases h
  cases ha : s.active <;> simp [ha]

/-- A `Close` leaves `active` cleared, whatever it was (43 R100). -/
theorem execReqClose_active {s t : State PinId} (h : execReqClose s = .next t) : t.active = false := by
  cases h
  cases ha : s.active <;> simp [ha]

/-- Every instruction but `Open` and `Close` keeps `active`. -/
theorem exec_active_of_ne {i : Instr} {s t : State} (h : exec i s = .next t) (ho : i ≠ .reqOpen)
    (hc : i ≠ .reqClose) : t.active = s.active := by
  cases i with
  | reqOpen => exact absurd rfl ho
  | reqClose => exact absurd rfl hc
  | reqReset => cases h; exact ite_active_eq _ (resetActive_active s) rfl
  | reqClear => cases h; exact ite_active_eq _ rfl rfl
  | reqDisplay line text => cases h; exact ite_active_eq _ (displayLine_active _ _ s) rfl
  | reqSetChar position definition => cases h; exact ite_active_eq _ rfl (ite_active_eq _ rfl rfl)
  | reqToggleBacklight => cases h; exact ite_active_eq _ (lightBacklight_active _ s) rfl
  | _ => cases h; rfl

/-- The writers of `active`, with the value each writes (10_state R22). -/
theorem exec_writes_active {i : Instr} {s t : State} (h : exec i s = .next t) (hne : t.active ≠ s.active) :
    (i = .reqOpen ∧ t.active = true) ∨ (i = .reqClose ∧ t.active = false) := by
  by_cases ho : i = .reqOpen
  · subst ho
    have ht : t.active = (s.active || (drawAcquire s).1) := execReqOpen_active h
    cases hs : s.active with
    | true => exact absurd (by rw [ht, hs, Bool.true_or]) hne
    | false => exact .inl ⟨rfl, by simpa [hs] using hne⟩
  · by_cases hc : i = .reqClose
    · subst hc
      exact .inr ⟨rfl, execReqClose_active h⟩
    · exact absurd (exec_active_of_ne h ho hc) hne

/-! ### What an `Open` that answers OK has done -/

/-- An `Open` whose acquisition failed answers the error and not OK (60_exceptions R105). -/
theorem openWith_responses_okay {ok : Bool} {s : State PinId}
    (h : (openWith ok s).responses = s.responses ++ [Spec.okay]) : ok = true := by
  cases ok with
  | true => rfl
  | false => simp [openWith, Spec.okay] at h

/-- An `Open` that answers OK leaves `active` set. -/
theorem execReqOpen_active_of_okay {s t : State PinId} (h : execReqOpen s = .next t)
    (hr : t.responses = s.responses ++ [Spec.okay]) : t.active = true := by
  rw [execReqOpen_active h]
  cases h
  cases ha : s.active with
  | true => rfl
  | false =>
    simp only [ha, Bool.false_eq_true, if_false] at hr
    exact openWith_responses_okay (hr.trans (by rw [drawAcquire_responses]))

/-! ### What `active` gates -/

/-- On an inactive block a request other than `Open` does no more than answer (43 R95). -/
theorem exec_request_of_inactive {i : Instr} {s : State} (hi : Spec.isRequest i = true) (ho : i ≠ .reqOpen)
    (hs : s.active = false) : ∃ code value, exec i s = .next (answer code value s) := by
  cases i with
  | reqOpen => exact absurd rfl ho
  | reqClose => exact ⟨.ok, none, by simp [exec, execReqClose, hs, respondOk]⟩
  | reqReset => exact ⟨.ok, none, by simp [exec, execReqReset, hs, respondOk]⟩
  | reqClear => exact ⟨.ok, none, by simp [exec, execReqClear, hs, respondOk]⟩
  | reqDisplay line text => exact ⟨.ok, none, by simp [exec, execReqDisplay, hs, respondOk]⟩
  | reqSetChar position definition =>
    by_cases hl : definition.length = glyphRows
    · exact ⟨.ok, none, by simp [exec, execReqSetChar, hl, hs, respondOk]⟩
    · exact ⟨.invalidGlyphDefinition, none, by simp [exec, execReqSetChar, hl, raise]⟩
  | reqToggleBacklight => exact ⟨.ok, none, by simp [exec, execReqToggleBacklight, hs, respondOk]⟩
  | reqActive => exact ⟨.ok, some s.active, rfl⟩
  | _ => cases hi

/-- Settles O55: the writers by a split over the instructions, the gate because an inactive block only answers. -/
theorem activeFlag : Obligations.ActiveFlag := by
  refine ⟨fun i s t => exec_writes_active, fun s t => execReqOpen_active_of_okay, fun s t => execReqClose_active,
    fun s => ⟨_, rfl, answer_responses _ _ s⟩, ?gate, fun c => rfl⟩
  intro i s t hi ho hs h
  obtain ⟨code, value, ha⟩ := exec_request_of_inactive hi ho hs
  cases ha.symm.trans h
  exact ⟨rfl, rfl, rfl, rfl, hs⟩

end Sys2Proof.Machine
end

section
/-! PROOFS. What the controller latches from a framer call (20_memory R37, R42): one latch per pulse, in the mode the
call drives. -/

namespace Sys2Proof.Machine

variable {PinId : Type}

/-- Driving RS latches nothing: what follows is read with RS at the mode driven. -/
theorem latchesFrom_pin_rs (ls : Lines) (rs : Bool) (evs : List Event) :
    latchesFrom ls (.pin .rs rs :: evs) = latchesFrom { ls with rs := levelOf rs } evs := by
  simp [latchesFrom, latchAt, applyEvent, setLine]

/-- A wait latches nothing, whatever the lines. -/
theorem latchesFrom_wait (ls : Lines) (d : Delay) : latchesFrom ls [.wait d] = [] := by
  simp [latchesFrom, latchAt]

/-- A byte is latched twice, high nibble first: the second pulse finds RS as the first left it. -/
theorem latchesFrom_writeByte (ls : Lines) (v : Byte) (rs : Bool) :
    latchesFrom ls (writeByte v rs) = [{ rs := rs, nibble := hiNibble v }, { rs := rs, nibble := loNibble v }] := by
  rw [writeByte, latchesFrom_pin_rs, latchesFrom_append, latchesFrom_append, latchesFrom_wait, latchesFrom_pulse,
    latchesFrom_pulse, applyEvents_pulse]
  simp [linesShowing]

/-- A single-nibble call is latched once, with or without its settle wait. -/
theorem latchesFrom_write4Bits (c : Config PinId) (ls : Lines) (v : Byte) (rs : Bool) :
    latchesFrom ls (write4Bits c v rs) = [{ rs := rs, nibble := loNibble v }] := by
  have hwait (ls' : Lines) : latchesFrom ls' (if c.switches.write4Settle then [.wait .settle] else []) = [] := by
    split
    · exact latchesFrom_wait ls' .settle
    · rfl
  rw [write4Bits, latchesFrom_pin_rs, latchesFrom_append, latchesFrom_pulse, hwait, levelBit_levelOf, List.append_nil]

/-- Settles O38, from the latches of each framer call and the bits of the two nibbles. -/
theorem byteIsTwoNibblesHighFirst : Obligations.ByteIsTwoNibblesHighFirst :=
  ⟨latchesFrom_writeByte, hi_append_lo, latchesFrom_write4Bits⟩

end Sys2Proof.Machine
end

section
/-! PROOFS. The initialization sequence (40 R80): its framer calls as the vectors write them out, what the controller
latches from it, the lines it leaves, and its counts. -/

namespace Sys2Proof.Machine

variable {PinId : Type}

/-! ### The framer calls as the spec's vectors write them -/

/-- A byte's events are those of vector V-F4: the nibbles' bits are the byte's bits 4 to 7 and 0 to 3. -/
theorem writeByte_eq_byteEvents (v : Byte) (rs : Bool) : writeByte v rs = Spec.byteEvents rs v := by
  simp [writeByte, Spec.byteEvents, pulse, Spec.pulseEvents, hiNibble, loNibble, BitVec.getElem_extractLsb']

theorem command_eq_byteEvents (v : Byte) : command v = Spec.byteEvents false v := writeByte_eq_byteEvents v false

theorem write4Bits_three (c : Config PinId) :
    write4Bits c 0x3 false = Spec.nibble3Events c.switches.write4Settle := rfl

theorem write4Bits_two (c : Config PinId) :
    write4Bits c 0x2 false = Spec.nibble2Events c.switches.write4Settle := rfl

/-- The sequence is vector V-F6, call by call; of the configuration it reads `WRITE4_SETTLE` alone. -/
theorem initSeq_eq_initEvents (c : Config PinId) : initSeq c = Spec.initEvents c.switches.write4Settle := by
  simp only [initSeq, clearCommand, write4Bits_three, write4Bits_two, command_eq_byteEvents, Spec.initEvents,
    List.append_assoc]

/-! ### Its latches and its lines -/

/-- The latches of the sequence are those of its eight calls in order; the waits between them latch nothing. -/
theorem latchesFrom_initSeq (c : Config PinId) (ls : Lines) :
    latchesFrom ls (initSeq c) =
      ([0x3, 0x3, 0x3, 0x2, 0x2, 0x8, 0x0, 0xC, 0x0, 0x6, 0x0, 0x1].map fun n : Nibble =>
        ({ rs := false, nibble := n } : Latch)) := by
  simp only [initSeq, clearCommand, command, latchesFrom_append, latchesFrom_write4Bits, latchesFrom_writeByte,
    latchesFrom_wait]
  rfl

/-- The sequence ends with the clear command and a wait, so it leaves the lines as that byte does. -/
theorem applyEvents_initSeq (c : Config PinId) (ls : Lines) : applyEvents ls (initSeq c) = Spec.linesAfterInit := by
  rw [initSeq, clearCommand, applyEvents_append, applyEvents_append, applyEvents_command]
  rfl

/-! ### Its counts (70 R135) -/

/-- The counts, the other events and the minimum wait of two runs add up. -/
theorem counts_append {t : Timing} {xs ys : List Event} {n n' p p' w w' : Nat} {o o' : List Event} {m m' : Nat}
    (h : Spec.Counts t xs n p w o m) (k : Spec.Counts t ys n' p' w' o' m') :
    Spec.Counts t (xs ++ ys) (n + n') (p + p') (w + w') (o ++ o') (m + m') := by
  obtain ⟨hn, hp, hw, ho, hm⟩ := h
  obtain ⟨kn, kp, kw, ko, km⟩ := k
  exact ⟨by rw [List.length_append, hn, kn], by rw [pinCount_append, hp, kp], by rw [waitCount_append, hw, kw],
    by rw [List.filter_append, ho, ko], by rw [minWait_append, hm, km]⟩

theorem counts_pin (t : Timing) (p : Line) (v : Bool) : Spec.Counts t [.pin p v] 1 1 0 [] 0 :=
  ⟨rfl, rfl, rfl, rfl, rfl⟩

theorem counts_wait (t : Timing) (d : Delay) : Spec.Counts t [.wait d] 1 0 1 [] (duration t d) :=
  ⟨rfl, rfl, rfl, rfl, rfl⟩

theorem counts_pulse (t : Timing) (n : Nibble) : Spec.Counts t (pulse n) 9 6 3 [] (3 * t.tPulse) :=
  ⟨rfl, rfl, rfl, rfl, by simp [minWait, pulse, waitOf, duration]; omega⟩

theorem counts_writeByte (t : Timing) (v : Byte) (rs : Bool) :
    Spec.Counts t (writeByte v rs) 20 13 7 [] (Spec.byteWait t) := by
  obtain ⟨hn, hp, hw, ho, hm⟩ := counts_append (counts_pin t .rs rs)
    (counts_append (counts_append (counts_pulse t (hiNibble v)) (counts_pulse t (loNibble v))) (counts_wait t .settle))
  exact ⟨hn, hp, hw, ho, hm.trans (by simp only [Spec.byteWait, duration]; omega)⟩

theorem counts_write4Bits {c : Config PinId} (h : c.switches.write4Settle = true) (t : Timing) (v : Byte) (rs : Bool) :
    Spec.Counts t (write4Bits c v rs) 11 7 4 [] (3 * t.tPulse + t.tSettle) := by
  obtain ⟨hn, hp, hw, ho, hm⟩ := counts_append (counts_pin t .rs rs)
    (counts_append (counts_pulse t (loNibble v)) (counts_wait t .settle))
  rw [write4Bits, if_pos h]
  exact ⟨hn, hp, hw, ho, hm.trans (Nat.zero_add _)⟩

theorem counts_initSeq {c : Config PinId} (h : c.switches.write4Settle = true) (t : Timing) :
    Spec.Counts t (initSeq c) 129 80 49 [] (Spec.initWait t) := by
  have nibble (v : Byte) (d : Delay) := counts_append (counts_write4Bits h t v false) (counts_wait t d)
  have byte (v : Byte) : Spec.Counts t (command v) 20 13 7 [] (Spec.byteWait t) := counts_writeByte t v false
  have nibbles := counts_append (counts_append (counts_append (nibble 0x3 .initLong) (nibble 0x3 .initShort))
    (nibble 0x3 .initShort)) (nibble 0x2 .initShort)
  have bytes := counts_append (counts_append (counts_append (byte 0x28) (byte 0x0C)) (byte 0x06))
    (counts_append (byte 0x01) (counts_wait t .clear))
  obtain ⟨hn, hp, hw, ho, hm⟩ := counts_append nibbles bytes
  rw [initSeq, clearCommand]
  simp only [List.append_assoc] at hn hp hw ho hm ⊢
  exact ⟨hn, hp, hw, ho, hm.trans (by simp only [Spec.initWait, Spec.byteWait, duration]; omega)⟩

/-- Settles O39, from the sequence's calls: as the vector writes them, their latches, their lines, their counts. -/
theorem initSequence : Obligations.InitSequence := by
  intro c
  refine ⟨initSeq_eq_initEvents c, latchesFrom_initSeq c, applyEvents_initSeq c, fun h => ?counts⟩
  obtain ⟨hlength, hpins, hwaits, -, -⟩ := counts_initSeq h c.timing
  exact ⟨hlength, hpins, hwaits⟩

end Sys2Proof.Machine
end

section
/-! PROOFS. The two transports (40 R82): what transport and backlight cannot change, and where `BL` comes from. -/

namespace Sys2Proof.Machine

variable {PinId : Type}

/-! ### What of the configuration the framer reads -/

theorem write4Bits_congr {c c' : Config PinId} (h : c.switches = c'.switches) (v : Byte) (rs : Bool) :
    write4Bits c v rs = write4Bits c' v rs := by
  rw [write4Bits, write4Bits, h]

theorem initSeq_congr {c c' : Config PinId} (h : c.switches = c'.switches) : initSeq c = initSeq c' := by
  rw [initSeq_eq_initEvents, initSeq_eq_initEvents, h]

theorem closeCommands_congr {c c' : Config PinId} (h : c.switches = c'.switches) :
    closeCommands c = closeCommands c' := by
  rw [closeCommands, closeCommands, h]

/-! ### States alike but for the light -/

/-- The two states agree on all that 40 R82 speaks of, and on all that decides it: they may differ in the transport, the
backlight, the `BL` events of the trace, the timing, and what waits at the port. -/
structure AlikeButLight (s s' : State PinId) : Prop where
  geometry : s.cfg.geometry = s'.cfg.geometry
  switches : s.cfg.switches = s'.cfg.switches
  active : s.active = s'.active
  cache : s.cache = s'.cache
  lines : s.lines = s'.lines
  trace : s.trace.filter Spec.notBacklight = s'.trace.filter Spec.notBacklight
  responses : s.responses = s'.responses
  acquireAnswers : s.acquireAnswers = s'.acquireAnswers
  draws : s.draws = s'.draws

namespace AlikeButLight

variable {s s' a a' b b' : State PinId}

/-- Changing the transport and the backlight alone leaves a state alike. -/
theorem of_transport_backlight (s : State PinId) (tr : Transport PinId) (v : Bool) :
    AlikeButLight s { s with cfg := { s.cfg with transport := tr }, backlight := v } :=
  ⟨rfl, rfl, rfl, rfl, rfl, rfl, rfl, rfl, rfl⟩

/-- The same choice between alike states gives alike states. -/
theorem ite {p p' : Prop} [Decidable p] [Decidable p'] (h : p ↔ p') (ha : AlikeButLight a a')
    (hb : AlikeButLight b b') : AlikeButLight (if p then a else b) (if p' then a' else b') := by
  by_cases hp : p
  · rwa [if_pos hp, if_pos (h.mp hp)]
  · rwa [if_neg hp, if_neg (mt h.mpr hp)]

theorem emit (h : AlikeButLight s s') {evs evs' : List Event} (he : evs = evs') :
    AlikeButLight (emit evs s) (emit evs' s') where
  __ := h
  lines := by simp [h.lines, he]
  trace := by simp [h.trace, he]

theorem answer (h : AlikeButLight s s') (code : ResponseCode) {value value' : Option Bool} (hv : value = value') :
    AlikeButLight (answer code value s) (answer code value' s') where
  __ := h
  responses := by simp [h.responses, hv]

theorem respondOk (h : AlikeButLight s s') : AlikeButLight (respondOk s) (respondOk s') := h.answer .ok rfl

theorem setActive (h : AlikeButLight s s') (v : Bool) : AlikeButLight (setActive v s) (setActive v s') where
  __ := h
  active := rfl

theorem fillCache (h : AlikeButLight s s') {entry entry' : Option Text} (he : entry = entry') :
    AlikeButLight (fillCache entry s) (fillCache entry' s') where
  __ := h
  cache := by simp [h.geometry, he]

theorem setCacheEntry (h : AlikeButLight s s') (i : Nat) (t : Text) :
    AlikeButLight (setCacheEntry i t s) (setCacheEntry i t s') where
  __ := h
  cache := by simp [h.cache]

/-- Lighting one of them leaves them alike: it writes the backlight and emits at most a `BL`. -/
theorem lightBacklight_left (h : AlikeButLight s s') (v : Bool) : AlikeButLight (lightBacklight v s) s' where
  geometry := by simp [h.geometry]
  switches := by simp [h.switches]
  active := by simp [h.active]
  cache := by simp [h.cache]
  lines := by simp [h.lines]
  trace := by
    rw [lightBacklight_trace]
    split <;> simp [h.trace, Spec.notBacklight]
  responses := by simp [h.responses]
  acquireAnswers := by simp [h.acquireAnswers]
  draws := by simp [h.draws]

theorem symm (h : AlikeButLight s s') : AlikeButLight s' s :=
  ⟨h.geometry.symm, h.switches.symm, h.active.symm, h.cache.symm, h.lines.symm, h.trace.symm, h.responses.symm,
    h.acquireAnswers.symm, h.draws.symm⟩

theorem lightBacklight_right (h : AlikeButLight s s') (v : Bool) : AlikeButLight s (lightBacklight v s') :=
  (h.symm.lightBacklight_left v).symm

/-- Alike states draw the same answer and stay alike. -/
theorem drawAcquire (h : AlikeButLight s s') :
    (drawAcquire s).1 = (drawAcquire s').1 ∧ AlikeButLight (drawAcquire s).2 (drawAcquire s').2 := by
  unfold Machine.drawAcquire
  rw [h.acquireAnswers, h.draws]
  split
  · exact ⟨rfl, { __ := h, acquireAnswers := rfl, draws := rfl }⟩
  · exact ⟨rfl, { __ := h, acquireAnswers := rfl, draws := rfl }⟩

/-! ### The requests -/

theorem openWith (h : AlikeButLight s s') (ok : Bool) : AlikeButLight (openWith ok s) (openWith ok s') := by
  cases ok with
  | false => exact h.answer .transportUnavailable rfl
  | true =>
    have acquired := h.emit (rfl : [Event.acq, .low] = [.acq, .low])
    have lit := (acquired.lightBacklight_left s.cfg.switches.backlightAtOpen).lightBacklight_right
      s'.cfg.switches.backlightAtOpen
    exact (((lit.fillCache rfl).emit (initSeq_congr h.switches)).setActive true).respondOk

theorem closeActive (h : AlikeButLight s s') : AlikeButLight (closeActive s) (closeActive s') := by
  have blank := (h.emit (congrArg clearLines h.geometry)).fillCache
    (congrArg (fun g => some (blankLine (Geometry.width g))) h.geometry)
  have dark := ((blank.emit (closeCommands_congr h.switches)).lightBacklight_left false).lightBacklight_right false
  exact ((dark.emit rfl).setActive false).respondOk

theorem resetActive (h : AlikeButLight s s') : AlikeButLight (resetActive s) (resetActive s') := by
  have sent := h.emit (initSeq_congr h.switches)
  exact (AlikeButLight.ite (by rw [h.switches]) (sent.fillCache rfl) sent).respondOk

theorem displayLine (h : AlikeButLight s s') (i : Nat) (t : Text) :
    AlikeButLight (displayLine i t s) (displayLine i t s') := by
  have hit : cacheEntry i s = some t ↔ cacheEntry i s' = some t := by rw [cacheEntry, cacheEntry, h.cache]
  exact .ite hit h.respondOk ((h.emit (by rw [h.geometry])).setCacheEntry i t).respondOk

end AlikeButLight

/-- An instruction takes alike states to alike states. -/
theorem exec_alikeButLight {i : Instr} {s s' t t' : State} (h : AlikeButLight s s') (ht : exec i s = .next t)
    (ht' : exec i s' = .next t') : AlikeButLight t t' := by
  have active : s.active = true ↔ s'.active = true := by rw [h.active]
  cases i with
  | reqOpen =>
    cases ht; cases ht'
    obtain ⟨same, drawn⟩ := h.drawAcquire
    exact .ite active h.respondOk (same ▸ drawn.openWith _)
  | reqClose => cases ht; cases ht'; exact .ite active h.closeActive h.respondOk
  | reqReset => cases ht; cases ht'; exact .ite active h.resetActive h.respondOk
  | reqClear =>
    cases ht; cases ht'
    exact .ite active ((h.emit (by rw [h.geometry])).fillCache (by rw [h.geometry])).respondOk h.respondOk
  | reqDisplay line text =>
    cases ht; cases ht'
    rw [← h.geometry]
    exact .ite (by rw [h.active]) (h.displayLine _ _) h.respondOk
  | reqSetChar position definition =>
    cases ht; cases ht'
    exact .ite Iff.rfl (h.answer _ rfl) (.ite active (h.emit rfl).respondOk h.respondOk)
  | reqToggleBacklight =>
    cases ht; cases ht'
    split <;> split
    · exact ((h.lightBacklight_left _).lightBacklight_right _).respondOk
    · exact (h.lightBacklight_left _).respondOk
    · exact (h.lightBacklight_right _).respondOk
    · exact h.respondOk
  | reqActive => cases ht; cases ht'; exact h.answer .ok (by rw [h.active])
  | outInitNibble3 => cases ht; cases ht'; exact h.emit (write4Bits_congr h.switches _ _)
  | outInitNibble2 => cases ht; cases ht'; exact h.emit (write4Bits_congr h.switches _ _)
  | outDisplayOff => cases ht; cases ht'; exact h.emit (by rw [h.switches])
  | _ => cases ht; cases ht'; exact h.emit rfl

/-! ### Where `BL` comes from -/

@[simp] theorem bl_notMem_write4Bits (c : Config PinId) (v : Byte) (rs light : Bool) :
    Event.bl light ∉ write4Bits c v rs := by
  rw [write4Bits]
  split <;> simp [pulse]

@[simp] theorem bl_notMem_writeByte (v : Byte) (rs light : Bool) : Event.bl light ∉ writeByte v rs := by
  simp [writeByte, pulse]

@[simp] theorem bl_notMem_command (v : Byte) (light : Bool) : Event.bl light ∉ command v := bl_notMem_writeByte v _ _

@[simp] theorem bl_notMem_character (v : Byte) (light : Bool) : Event.bl light ∉ character v :=
  bl_notMem_writeByte v _ _

@[simp] theorem bl_notMem_characters (t : Text) (light : Bool) : Event.bl light ∉ characters t := by
  simp [characters]

@[simp] theorem bl_notMem_lineWrite (a : Byte) (t : Text) (light : Bool) : Event.bl light ∉ lineWrite a t := by
  simp [lineWrite]

@[simp] theorem bl_notMem_clearLines (g : Geometry) (light : Bool) : Event.bl light ∉ clearLines g := by
  simp [clearLines]

@[simp] theorem bl_notMem_clearCommand (light : Bool) : Event.bl light ∉ clearCommand := by
  simp [clearCommand]

@[simp] theorem bl_notMem_initSeq (c : Config PinId) (light : Bool) : Event.bl light ∉ initSeq c := by
  simp [initSeq]

@[simp] theorem bl_notMem_closeCommands (c : Config PinId) (light : Bool) : Event.bl light ∉ closeCommands c := by
  rw [closeCommands]
  split <;> simp

@[simp] theorem bl_notMem_glyphWrite (position : Byte) (definition : Text) (light : Bool) :
    Event.bl light ∉ glyphWrite position definition := by
  simp [glyphWrite]

/-- A request that adds a `BL` to the trace is one of the three that write the backlight, in the I2C variant. -/
theorem Emits.of_bl_mem {s : State PinId} {i : Instr} {evs : List Event} {v : Bool} (h : Emits s i evs)
    (hv : .bl v ∈ evs) : s.isI2c = true ∧ (i = .reqOpen ∨ i = .reqClose ∨ i = .reqToggleBacklight) := by
  cases h with
  | silent => simp at hv
  | opens => exact ⟨by by_contra hi; simp [hi] at hv, .inl rfl⟩
  | closes => exact ⟨by by_contra hi; simp [hi] at hv, .inr (.inl rfl)⟩
  | lights _ hi => exact ⟨hi, .inr (.inr rfl)⟩
  | resets => simp at hv
  | clears => simp at hv
  | displays => simp at hv
  | draws => simp at hv

/-- A request adds to the trace what `Emits` lists. -/
theorem exec_request_emits {i : Instr} {s t : State} (hi : Spec.isRequest i = true) (h : exec i s = .next t) :
    ∃ evs, t.trace = s.trace ++ evs ∧ Emits s i evs := by
  cases i with
  | reqOpen => exact execReqOpen_emits h
  | reqClose => exact execReqClose_emits h
  | reqReset => exact execReqReset_emits h
  | reqClear => exact execReqClear_emits h
  | reqDisplay line text => exact execReqDisplay_emits h
  | reqSetChar position definition => exact execReqSetChar_emits h
  | reqToggleBacklight => exact execReqToggleBacklight_emits h
  | reqActive => exact execReqActive_emits h
  | _ => cases hi

/-- An output pattern adds the events of a framer call, so no `BL`. -/
theorem exec_output_bl_notMem {i : Instr} {s t : State} {evs : List Event} (hi : Spec.isRequest i = false)
    (h : exec i s = .next t) (ht : t.trace = s.trace ++ evs) (v : Bool) : .bl v ∉ evs := by
  cases i with
  | reqOpen | reqClose | reqReset | reqClear | reqDisplay _ _ | reqSetChar _ _ | reqToggleBacklight | reqActive =>
    cases hi
  | _ =>
    cases h
    rw [← List.append_cancel_left ht]
    simp

/-- Settles O58: alike states stay alike, and a `BL` added comes from one of the three requests. -/
theorem bothTransportsSameTrace : Obligations.BothTransportsSameTrace := by
  refine ⟨?same, ?light⟩
  case same =>
    intro i s t t' tr b ht ht'
    have h := (exec_alikeButLight (.of_transport_backlight s tr b) ht ht').symm
    exact ⟨h.trace, h.responses, h.lines, h.cache, h.active⟩
  case light =>
    intro i s t evs v h ht hv
    cases hi : Spec.isRequest i with
    | false => exact absurd hv (exec_output_bl_notMem hi h ht v)
    | true =>
      obtain ⟨evs', ht', emits⟩ := exec_request_emits hi h
      exact emits.of_bl_mem (List.append_cancel_left (ht.symm.trans ht') ▸ hv)

end Sys2Proof.Machine
end

section
/-! PROOFS. What one step can do, said once, and that neither an instruction nor a step writes the configuration
(00_scope R6, 10_state R15). -/

namespace Sys2Proof.Machine

variable {PinId : Type}

/-- Every step that goes on: the block waits unchanged; a request is taken into service; a waiting `Active` is
answered; or the item in service runs to its end. -/
theorem step_cases {s t : State} (h : step s = .next t) :
    (s.service = none ∧ waiting s = [] ∧ t = s) ∨
    (∃ k r i d, s.service = none ∧ waitingActive s = [] ∧ k ∈ waiting s ∧ offered k s = some r ∧
      decode (.request r) = .ok i ∧
      t = { takeOffer k s with service := some { requester := some k, item := .request r }, draws := d }) ∨
    (∃ k d, k ∈ waitingActive s ∧ exec .reqActive { takeOffer k s with draws := d } = .next t) ∨
    ∃ sv i, s.service = some sv ∧ waitingActive s = [] ∧ decode sv.item = .ok i ∧
      exec i { s with service := none } = .next t := by
  unfold step at h
  rcases turn_cases s with ⟨ht, hs, hw⟩ | ⟨k, r, i, d, hs, ha, hk, hr, hi, ht⟩ | ⟨k, d, hk, ht⟩ |
    ⟨sv, i, hs, ha, hi, ht⟩ | ⟨why, ht⟩ <;> simp only [ht] at h
  · cases h; exact .inl ⟨hs, hw, rfl⟩
  · cases h; exact .inr (.inl ⟨k, r, i, d, hs, ha, hk, hr, hi, rfl⟩)
  · exact .inr (.inr (.inl ⟨k, d, hk, h⟩))
  · exact .inr (.inr (.inr ⟨sv, i, hs, ha, hi, h⟩))
  · cases h

/-! ### The shared runs of the requests keep the configuration -/

/-- A choice between two states that both have the configuration of `s` has it too. -/
theorem ite_cfg_eq (c : Prop) [Decidable c] {a b s : State PinId} (ha : a.cfg = s.cfg) (hb : b.cfg = s.cfg) :
    (if c then a else b).cfg = s.cfg := by
  split
  · exact ha
  · exact hb

@[simp] theorem openWith_cfg (ok : Bool) (s : State PinId) : (openWith ok s).cfg = s.cfg :=
  ite_cfg_eq _ (by simp) rfl

@[simp] theorem closeActive_cfg (s : State PinId) : (closeActive s).cfg = s.cfg := by simp [closeActive]

@[simp] theorem resetActive_cfg (s : State PinId) : (resetActive s).cfg = s.cfg :=
  (respondOk_cfg _).trans (ite_cfg_eq _ (by simp) (by simp))

@[simp] theorem displayLine_cfg (i : Nat) (text : Text) (s : State PinId) : (displayLine i text s).cfg = s.cfg :=
  ite_cfg_eq _ rfl rfl

/-! ### Every instruction and every step keeps it -/

theorem exec_cfg {i : Instr} {s t : State} (h : exec i s = .next t) : t.cfg = s.cfg := by
  cases i with
  | reqOpen => cases h; exact ite_cfg_eq _ rfl (by simp)
  | reqClose => cases h; exact ite_cfg_eq _ (closeActive_cfg s) rfl
  | reqReset => cases h; exact ite_cfg_eq _ (resetActive_cfg s) rfl
  | reqClear => cases h; exact ite_cfg_eq _ rfl rfl
  | reqDisplay line text => cases h; exact ite_cfg_eq _ (displayLine_cfg _ _ s) rfl
  | reqSetChar position definition => cases h; exact ite_cfg_eq _ rfl (ite_cfg_eq _ rfl rfl)
  | reqToggleBacklight => cases h; exact ite_cfg_eq _ (lightBacklight_cfg _ s) rfl
  | _ => cases h; rfl

theorem step_cfg {s t : State} (h : step s = .next t) : t.cfg = s.cfg := by
  rcases step_cases h with ⟨-, -, rfl⟩ | ⟨k, r, i, d, -, -, -, -, -, rfl⟩ | ⟨k, d, -, hx⟩ | ⟨sv, i, -, -, -, hx⟩
  · rfl
  · rfl
  · exact (exec_cfg hx).trans rfl
  · exact (exec_cfg hx).trans rfl

end Sys2Proof.Machine
end

section
/-! PROOFS. The line-address mapper and construction (41 R83 to R85): which pairs are a geometry, what a constructed
block's configuration is, and the tables. -/

namespace Sys2Proof.Machine

variable {PinId : Type}

/-! ### Which pairs are a geometry -/

/-- A pair of width and lines has a geometry exactly where that geometry has this width and these lines. -/
theorem geometryOf_eq_some_iff {width lines : Nat} {g : Geometry} :
    geometryOf width lines = some g ↔ g.width = width ∧ g.lines = lines := by
  constructor
  · intro h
    unfold geometryOf at h
    split_ifs at h with h2 h4 h20
    · cases h; exact ⟨h2.1.symm, h2.2.symm⟩
    · cases h; exact ⟨h4.1.symm, h4.2.symm⟩
    · cases h; exact ⟨h20.1.symm, h20.2.symm⟩
  · rintro ⟨rfl, rfl⟩
    cases g <;> rfl

/-- The width and the lines of a geometry are one of the three pairs. -/
theorem width_lines_mem (g : Geometry) : (g.width, g.lines) ∈ [(16, 2), (16, 4), (20, 4)] := by
  cases g <;> decide

/-- A pair that is none of the three has no geometry. -/
theorem geometryOf_eq_none {width lines : Nat} (h : (width, lines) ∉ [(16, 2), (16, 4), (20, 4)]) :
    geometryOf width lines = none := by
  rw [Option.eq_none_iff_forall_ne_some]
  intro g hg
  obtain ⟨rfl, rfl⟩ := geometryOf_eq_some_iff.mp hg
  exact h (width_lines_mem g)

/-! ### Construction -/

/-- A constructed block is the fresh one of the geometry its pair has and of its transport. -/
theorem construct_cases [DecidableEq PinId] {r : RawConfig PinId} {s : State PinId} (h : construct r = .next s) :
    ∃ g t, geometryOf r.width r.lines = some g ∧ transportOf r.transport = .ok t ∧
      s = State.fresh { transport := t, geometry := g, timing := r.timing, switches := r.switches } := by
  unfold construct at h
  split at h
  · cases h
  next g hg =>
    split at h
    · cases h
    next t ht => cases h; exact ⟨g, t, hg, ht, rfl⟩

/-- The geometry of a constructed block has the width and the lines asked for. -/
theorem construct_geometry [DecidableEq PinId] {r : RawConfig PinId} {s : State PinId} (h : construct r = .next s) :
    s.cfg.geometry.width = r.width ∧ s.cfg.geometry.lines = r.lines := by
  obtain ⟨g, t, hg, -, rfl⟩ := construct_cases h
  exact geometryOf_eq_some_iff.mp hg

/-- A pair without a geometry is refused, whatever else the configuration holds. -/
theorem construct_of_geometryOf_none [DecidableEq PinId] {r : RawConfig PinId}
    (h : geometryOf r.width r.lines = none) :
    construct r = .refused (.unsupportedGeometry r.width r.lines) := by
  simp only [construct, h]

/-- Settles O47: such a pair has no geometry, which is the first thing construction looks for. -/
theorem unsupportedGeometryRefused : Obligations.UnsupportedGeometryRefused :=
  fun _ _ _ h => construct_of_geometryOf_none (geometryOf_eq_none h)

/-! ### The tables -/

/-- The table of a geometry, by its width and lines. -/
theorem lineTable_eq_ite (g : Geometry) :
    lineTable g = if (g.width, g.lines) = (16, 2) then [0x80, 0xC0] else [0x80, 0xC0, 0x94, 0xD4] := by
  cases g <;> rfl

/-- A table has one entry per line. -/
@[simp] theorem lineTable_length (g : Geometry) : (lineTable g).length = g.lines := by
  cases g <;> rfl

/-- Settles O45: construction takes the geometry from the pair asked for, and no step writes the configuration. -/
theorem lineAddressTables : Obligations.LineAddressTables := by
  refine ⟨?table, ?entries, ?fixed, by decide⟩
  case table =>
    intro r s h
    obtain ⟨hwidth, hlines⟩ := construct_geometry h
    rw [lineTable_eq_ite, hwidth, hlines]
  case entries =>
    intro r s h
    rw [lineTable_length, (construct_geometry h).2]
  case fixed =>
    intro s t h
    rw [step_cfg h]

end Sys2Proof.Machine
end

section
/-! PROOFS. The redraw cache's test of a line (42 R89): which lines are in range, and what `Display` does on the others. -/

namespace Sys2Proof.Machine

variable {PinId : Type}

theorem inRange_eq_true_iff {g : Geometry} {line : Int} : inRange g line = true ↔ 0 ≤ line ∧ line < (g.lines : Int) :=
  decide_eq_true_iff

theorem inRange_eq_false_iff {g : Geometry} {line : Int} : inRange g line = false ↔ line < 0 ∨ (g.lines : Int) ≤ line := by
  rw [← Bool.not_eq_true, inRange_eq_true_iff]
  omega

/-- On a line out of range `Display` only answers, on an active block and on an inactive one. -/
theorem execReqDisplay_of_inRange_eq_false {line : Int} (text : Text) {s : State PinId}
    (h : inRange s.cfg.geometry line = false) : execReqDisplay line text s = .next (respondOk s) := by
  simp only [execReqDisplay, h, Bool.and_false, Bool.false_eq_true, if_false]

/-- Settles O26: the lines named are those out of range, where `Display` only answers. -/
theorem outOfRangeLineIsIgnored : Obligations.OutOfRangeLineIsIgnored :=
  ⟨fun _ _ => inRange_eq_true_iff,
    fun _ _ text h => execReqDisplay_of_inRange_eq_false text (inRange_eq_false_iff.mpr h)⟩

end Sys2Proof.Machine
end

section
/-! PROOFS. `TRANSPORT_UNAVAILABLE` (60_exceptions R105): what every instruction answers, said once, and the draw and
the failure of `Open`. -/

namespace Sys2Proof.Machine

variable {PinId : Type}

/-! ### What the instructions answer -/

/-- The responses an instruction adds in a state: one for a request, none for an output pattern. -/
def responsesOf (i : Instr) (s : State PinId) : List Response :=
  match i with
  | .reqOpen =>
    [{ code := if s.active || (drawAcquire s).1 then .ok else .transportUnavailable, value := none }]
  | .reqSetChar _ definition =>
    [{ code := if definition.length = glyphRows then .ok else .invalidGlyphDefinition, value := none }]
  | .reqActive => [{ code := .ok, value := some s.active }]
  | i => if Spec.isRequest i then [Spec.okay] else []

/-- A choice between two states with the same responses has them too. -/
theorem ite_responses_eq (c : Prop) [Decidable c] {a b : State PinId} {rs : List Response} (ha : a.responses = rs)
    (hb : b.responses = rs) : (if c then a else b).responses = rs := by
  split
  · exact ha
  · exact hb

@[simp] theorem openWith_responses (ok : Bool) (s : State PinId) :
    (openWith ok s).responses =
      s.responses ++ [{ code := if ok then .ok else .transportUnavailable, value := none }] := by
  cases ok <;> simp [openWith]

theorem closeActive_responses (s : State PinId) : (closeActive s).responses = s.responses ++ [Spec.okay] := by
  simp [closeActive, Spec.okay]

theorem resetActive_responses (s : State PinId) : (resetActive s).responses = s.responses ++ [Spec.okay] :=
  (respondOk_responses _).trans
    (congrArg (· ++ [Spec.okay]) (ite_responses_eq _ (by simp) (by simp)))

theorem displayLine_responses (i : Nat) (text : Text) (s : State PinId) :
    (displayLine i text s).responses = s.responses ++ [Spec.okay] :=
  ite_responses_eq _ rfl rfl

/-- `Open` answers OK where the block is active or the draw succeeds, and the error otherwise. -/
theorem execReqOpen_responses {s t : State PinId} (h : execReqOpen s = .next t) :
    t.responses = s.responses ++ responsesOf .reqOpen s := by
  cases h
  cases ha : s.active <;> simp [ha, responsesOf]

/-- `SetChar` answers by the length of the definition alone. -/
theorem execReqSetChar_responses {position : Byte} {definition : Text} {s t : State PinId}
    (h : execReqSetChar position definition s = .next t) :
    t.responses = s.responses ++ responsesOf (.reqSetChar position definition) s := by
  cases h
  by_cases hl : definition.length = glyphRows
  · simp only [hl, ne_eq, not_true_eq_false, if_false, if_true, responsesOf]
    exact ite_responses_eq _ rfl rfl
  · simp [hl, responsesOf]

/-- What an instruction adds to the responses, in every state (20_memory R52, 30_encoding R56). -/
theorem exec_responses {i : Instr} {s t : State} (h : exec i s = .next t) :
    t.responses = s.responses ++ responsesOf i s := by
  cases i with
  | reqOpen => exact execReqOpen_responses h
  | reqClose => cases h; exact ite_responses_eq _ (closeActive_responses s) rfl
  | reqReset => cases h; exact ite_responses_eq _ (resetActive_responses s) rfl
  | reqClear => cases h; exact ite_responses_eq _ rfl rfl
  | reqDisplay line text => cases h; exact ite_responses_eq _ (displayLine_responses _ _ s) rfl
  | reqSetChar position definition => exact execReqSetChar_responses h
  | reqToggleBacklight =>
    cases h
    exact ite_responses_eq _ (congrArg (· ++ [Spec.okay]) (lightBacklight_responses _ s)) rfl
  | reqActive => cases h; rfl
  | _ => cases h; exact (List.append_nil _).symm

/-- The error is among the responses of `Open` alone, on an inactive block whose draw is false. -/
theorem eq_reqOpen_of_mem_responsesOf {i : Instr} {s : State PinId} {r : Response} (h : r ∈ responsesOf i s)
    (hr : r.code = .transportUnavailable) :
    i = .reqOpen ∧ s.active = false ∧ (drawAcquire s).1 = false := by
  cases i with
  | reqOpen =>
    cases List.mem_singleton.mp h
    exact ⟨rfl, by simpa using hr⟩
  | reqSetChar position definition =>
    cases List.mem_singleton.mp h
    by_cases hl : definition.length = glyphRows <;> simp [hl] at hr
  | reqClose | reqReset | reqClear | reqDisplay _ _ | reqToggleBacklight | reqActive =>
    cases List.mem_singleton.mp h
    cases hr
  | _ => cases h

/-! ### The draw and the failure of `Open` -/

/-- A supplied answer is the draw, and is used up. -/
theorem drawAcquire_of_supplied {s : State PinId} {ok : Bool} {rest : List Bool}
    (h : s.acquireAnswers = ok :: rest) : drawAcquire s = (ok, { s with acquireAnswers := rest }) := by
  simp only [drawAcquire, h]

/-- Where the draw is false, `Open` of an inactive block does no more than draw and answer the error. -/
theorem execReqOpen_of_draw_false {s : State PinId} (ha : s.active = false) (hd : (drawAcquire s).1 = false) :
    execReqOpen s = .next (raise .transportUnavailable (drawAcquire s).2) := by
  simp [execReqOpen, ha, hd, openWith]

/-- The same with the answer supplied. -/
theorem execReqOpen_of_supplied_false {s : State PinId} {rest : List Bool} (ha : s.active = false)
    (h : s.acquireAnswers = false :: rest) :
    execReqOpen s = .next (raise .transportUnavailable { s with acquireAnswers := rest }) := by
  rw [execReqOpen_of_draw_false ha (by rw [drawAcquire_of_supplied h]), drawAcquire_of_supplied h]

/-- Where the draw is true, `Open` leaves the block active. -/
theorem execReqOpen_of_draw_true {s : State PinId} (hd : (drawAcquire s).1 = true) :
    ∃ t, execReqOpen s = .next t ∧ t.active = true :=
  ⟨_, rfl, by rw [execReqOpen_active rfl, hd, Bool.or_true]⟩

/-- Settles O18: the error is a response of `Open` alone; the failing `Open` leaves the next answer to the next draw. -/
theorem transportUnavailableOnlyFromOpen : Obligations.TransportUnavailableOnlyFromOpen := by
  refine ⟨?source, fun s rest => execReqOpen_of_supplied_false, ?effect, ?again⟩
  case source =>
    intro i s t h hr
    have answered := List.append_cancel_left ((exec_responses h).symm.trans hr)
    exact eq_reqOpen_of_mem_responsesOf (answered ▸ List.mem_singleton_self _) rfl
  case effect =>
    intro s ha hd
    rw [← drawAcquire_responses s]
    exact execReqOpen_of_draw_false ha hd
  case again =>
    intro s t rest ha hs h
    cases (execReqOpen_of_supplied_false ha hs).symm.trans h
    exact execReqOpen_of_draw_true rfl

end Sys2Proof.Machine
end

section
/-! PROOFS. What `Reset` leaves as it was (70 R122): every register but the lines, and the cache by its switch. -/

namespace Sys2Proof.Machine

variable {PinId : Type}

/-! ### The effect of `Reset` on an active block -/

@[simp] theorem resetActive_backlight (s : State PinId) : (resetActive s).backlight = s.backlight := by
  rw [resetActive, respondOk_backlight]
  split <;> rfl

/-- The switch alone decides whether the cache is emptied. -/
@[simp] theorem resetActive_cache (s : State PinId) :
    (resetActive s).cache =
      if s.cfg.switches.resetInvalidatesCache then List.replicate s.cfg.geometry.lines none else s.cache := by
  rw [resetActive, respondOk_cache]
  split <;> rfl

/-! ### `Reset` in every state -/

/-- No instruction writes `busy`: taking a request into service and ending its service is the port's doing. -/
theorem exec_busy {i : Instr} {s t : State} (h : exec i s = .next t) : t.busy = s.busy :=
  congrArg Option.isSome (exec_port h).1

theorem execReqReset_backlight {s t : State PinId} (h : execReqReset s = .next t) : t.backlight = s.backlight := by
  cases h
  split
  · exact resetActive_backlight s
  · rfl

theorem execReqReset_cache_of_kept {s t : State PinId} (h : execReqReset s = .next t)
    (hkept : s.cfg.switches.resetInvalidatesCache = false) : t.cache = s.cache := by
  cases h
  split
  · simp [hkept]
  · rfl

/-- Of the two runs `Emits` allows a `Reset`, the silent one is of an inactive block. -/
theorem execReqReset_trace_of_active {s t : State PinId} (h : execReqReset s = .next t) (ha : s.active = true) :
    t.trace = s.trace ++ initSeq s.cfg := by
  obtain ⟨evs, ht, emits⟩ := execReqReset_emits h
  cases emits with
  | silent _ _ inactive => exact absurd ha (by simp [inactive rfl])
  | resets => exact ht

/-- Settles O21: register by register, and the sequence as the vector writes it. -/
theorem resetKeepsRegisters : Obligations.ResetKeepsRegisters := by
  intro s
  obtain ⟨t, h⟩ : ∃ t, exec .reqReset s = .next t := ⟨_, rfl⟩
  have trace (ha : s.active = true) : t.trace = s.trace ++ Spec.initEvents s.cfg.switches.write4Settle := by
    rw [execReqReset_trace_of_active h ha, initSeq_eq_initEvents]
  exact ⟨t, h, exec_cfg h, exec_active_of_ne h nofun nofun, execReqReset_backlight h, exec_busy h,
    execReqReset_cache_of_kept h, trace⟩

end Sys2Proof.Machine
end

section
/-! PROOFS. The encodings (30_encoding R53 to R71): the words of the table's rows with an operand, the 32-bit line field
and the command byte of a glyph. -/

namespace Sys2Proof.Machine

/-! ### The output words with an operand: read back, and the only words of their rows -/

theorem decodeByte8_writeData (d : Byte) : decodeByte8 (0b1#1 ++ d) = .ok (.outWriteData d) := by
  have fixed : (0b1#1 ++ d : BitVec 9) &&& 0x100 = 0x100 := by revert d; decide
  have operand : (0b1#1 ++ d : BitVec 9).extractLsb' 0 8 = d := by revert d; decide
  rw [decodeByte8, if_pos fixed, operand]

theorem decodeByte8_setDdramAddr (a : BitVec 7) : decodeByte8 (0b01#2 ++ a) = .ok (.outSetDdramAddr a) := by
  have command : (0b01#2 ++ a : BitVec 9) &&& 0x100 ≠ 0x100 := by revert a; decide
  have fixed : (0b01#2 ++ a : BitVec 9) &&& 0x180 = 0x080 := by revert a; decide
  have operand : (0b01#2 ++ a : BitVec 9).extractLsb' 0 7 = a := by revert a; decide
  rw [decodeByte8, if_neg command, if_pos fixed, operand]

theorem decodeByte8_setCgramAddr (a : BitVec 6) : decodeByte8 (0b001#3 ++ a) = .ok (.outSetCgramAddr a) := by
  have command : (0b001#3 ++ a : BitVec 9) &&& 0x100 ≠ 0x100 := by revert a; decide
  have notDdram : (0b001#3 ++ a : BitVec 9) &&& 0x180 ≠ 0x080 := by revert a; decide
  have fixed : (0b001#3 ++ a : BitVec 9) &&& 0x1C0 = 0x040 := by revert a; decide
  have operand : (0b001#3 ++ a : BitVec 9).extractLsb' 0 6 = a := by revert a; decide
  rw [decodeByte8, if_neg command, if_neg notDdram, if_pos fixed, operand]

/-- Settles O1, row by row: a word with an operand is read back by its fixed bits, every other by its number. -/
theorem decodeEncodeRoundTrip : Obligations.DecodeEncodeRoundTrip := by
  intro i
  cases i with
  | outWriteData d => exact decodeByte8_writeData d
  | outSetDdramAddr a => exact decodeByte8_setDdramAddr a
  | outSetCgramAddr a => exact decodeByte8_setCgramAddr a
  | _ => rfl

theorem encode_of_decodeByte8 {v : BitVec 9} {i : Instr} (h : decodeByte8 v = .ok i) : encode i = .byte8 v := by
  have data : ∀ w : BitVec 9, w &&& 0x100 = 0x100 → 0b1#1 ++ w.extractLsb' 0 8 = w := by decide
  have ddram : ∀ w : BitVec 9, w &&& 0x180 = 0x080 → 0b01#2 ++ w.extractLsb' 0 7 = w := by decide
  have cgram : ∀ w : BitVec 9, w &&& 0x1C0 = 0x040 → 0b001#3 ++ w.extractLsb' 0 6 = w := by decide
  unfold decodeByte8 at h
  split_ifs at h with hd ha hc
  · cases h; exact congrArg PortItem.byte8 (data v hd)
  · cases h; exact congrArg PortItem.byte8 (ddram v ha)
  · cases h; exact congrArg PortItem.byte8 (cgram v hc)
  all_goals subst v; cases h; rfl

theorem encode_of_decodeNib4 {v : BitVec 5} {i : Instr} (h : decodeNib4 v = .ok i) : encode i = .nib4 v := by
  unfold decodeNib4 at h
  split_ifs at h with h3 h2
  · subst h3; cases h; rfl
  · subst h2; cases h; rfl

/-- Settles O3, by the rows of each word length. -/
theorem outputWordsUnambiguous : Obligations.OutputWordsUnambiguous :=
  ⟨fun _ _ => encode_of_decodeByte8, fun _ _ => encode_of_decodeNib4⟩

/-! ### The line operand of a hardware port (30_encoding R55) -/

theorem lineOf_field_ofInt {line : Int} (h : -2147483648 ≤ line ∧ line < 2147483648) :
    lineOf (.field (BitVec.ofInt 32 line)) = line :=
  BitVec.toInt_ofInt_eq_self (by decide) h.1 h.2

theorem lineOf_field (f : BitVec 32) :
    lineOf (.field f) = if f.toNat < 2 ^ 31 then (f.toNat : Int) else (f.toNat : Int) - 2 ^ 32 := by
  rw [lineOf, BitVec.toInt_eq_toNat_cond]
  split <;> split <;> omega

/-- Settles O2: a line that fits is the signed value of its field; every other instruction is encoded as ever. -/
theorem portFieldRoundTrip : Obligations.PortFieldRoundTrip := by
  refine ⟨?fits, ?signed⟩
  case fits =>
    intro i hi
    cases i with
    | reqDisplay line text =>
      exact congrArg (fun n => Except.ok (Instr.reqDisplay n text)) (lineOf_field_ofInt (of_decide_eq_true hi))
    | _ => exact (congrArg decode (by rfl)).trans (decodeEncodeRoundTrip _)
  case signed =>
    intro f text
    rw [← lineOf_field f]
    rfl

/-! ### Sample words, and the command byte of a glyph (70 R133) -/

/-- Settles O4: each word is read by evaluation. -/
theorem sampleWordsDecode : Obligations.SampleWordsDecode :=
  ⟨rfl, rfl, rfl, rfl, rfl, rfl, rfl, rfl⟩

/-- The command byte of a glyph, whatever the position (43 R101). -/
theorem glyphCommand_eq_ofNat (p : Byte) : glyphCommand p = BitVec.ofNat 8 (0x40 + p.toNat * 8) := by
  revert p; decide

theorem glyphCommand_eq_mod (p : Byte) : glyphCommand p = BitVec.ofNat 8 (0x40 + p.toNat % 32 * 8) := by
  revert p; decide

/-- Below 8 mod 32 the command byte is a set-CGRAM-address. -/
theorem glyphCommand_cgram {p : Byte} (h : p.toNat % 32 < 8) :
    0#1 ++ glyphCommand p = 0b001#3 ++ BitVec.ofNat 6 (p.toNat % 32 * 8) := by
  revert p; decide

/-- From 8 to 23 mod 32 it is a set-DDRAM-address. -/
theorem glyphCommand_ddram {p : Byte} (h : 8 ≤ p.toNat % 32) (h' : p.toNat % 32 < 24) :
    0#1 ++ glyphCommand p = 0b01#2 ++ BitVec.ofNat 7 ((p.toNat % 32 - 8) * 8) := by
  revert p; decide

/-- From 24 mod 32 it is a byte below 0x40. -/
theorem glyphCommand_low {p : Byte} (h : 24 ≤ p.toNat % 32) :
    glyphCommand p = BitVec.ofNat 8 ((p.toNat % 32 - 24) * 8) := by
  revert p; decide

/-- Settles O31: in each range the word is the one of its row, which is read back. -/
theorem glyphCommandByPosition : Obligations.GlyphCommandByPosition := by
  intro p
  refine ⟨glyphCommand_eq_mod p, fun h => ?cgram, fun h h' => ?ddram, glyphCommand_low⟩
  case cgram => rw [glyphCommand_cgram h]; exact decodeByte8_setCgramAddr _
  case ddram => rw [glyphCommand_ddram h h']; exact decodeByte8_setDdramAddr _

end Sys2Proof.Machine
end

section
/-! PROOFS. The request port and the step (10_state R26, 20_memory R47, R48, 60_exceptions R107, R111, R116): which turn
the port takes in a given state, and what a step that goes on leaves of the queues, the trace and the responses. -/

namespace Sys2Proof.Machine

variable {PinId : Type}

/-! ### Which turn the port takes -/

/-- Where no `Active` waits, a busy port serves what is in service. -/
theorem turn_of_service {s : State PinId} {sv : Service} (hs : s.service = some sv) (ha : waitingActive s = []) :
    turn s = serve sv s := by
  rw [turn_of_noActive ha]
  simp only [serviceTurn, hs]

/-- Where no `Active` waits, a free port takes the one request waiting. -/
theorem turn_of_free {s : State PinId} {k : Nat} (hs : s.service = none) (ha : waitingActive s = [])
    (hw : waiting s = [k]) : turn s = acceptFrom k s := by
  rw [turn_of_noActive ha]
  simp only [serviceTurn, hs, hw, pickOne]

/-- A port that is free and has nothing waiting idles. -/
theorem turn_of_quiescent {s : State PinId} (hs : s.service = none) (hw : waiting s = []) : turn s = .idle := by
  have ha : waitingActive s = [] := by rw [waitingActive, hw, List.filter_nil]
  rw [turn_of_noActive ha]
  simp only [serviceTurn, hs, hw, pickOne]

/-- The one `Active` waiting is answered. -/
theorem turn_of_active {s : State PinId} {k : Nat} (ha : waitingActive s = [k]) :
    turn s = .run .reqActive (takeOffer k s) := by
  simp only [turn, ha, pickOne]

/-- No `Active` waits where the one request waiting is another. -/
theorem waitingActive_eq_nil {s : State PinId} {k : Nat} {r : Request} (hw : waiting s = [k])
    (hr : offered k s = some r) (hne : r ≠ { op := 0x8, operands := .none }) : waitingActive s = [] := by
  rw [List.eq_nil_iff_forall_not_mem]
  intro j hj
  obtain ⟨hj, -, ho⟩ := mem_waitingActive.mp hj
  rw [hw, List.mem_singleton] at hj
  subst hj
  exact hne (Option.some.inj (hr.symm.trans ho))

/-- The one request waiting at a free port is among the waiting `Active`s if it is one. -/
theorem waitingActive_eq_singleton {s : State PinId} {k : Nat} (hs : s.service = none) (hw : waiting s = [k])
    (hr : offered k s = some { op := 0x8, operands := .none }) : waitingActive s = [k] := by
  simp [waitingActive, hw, hs, hr, isActiveRequest]

/-- A turn that refuses has met, on offer at a free port or in service, something that does not decode. -/
theorem turn_refuse {s : State PinId} {why : Refusal} (h : turn s = .refuse why) :
    (∃ k r e, s.service = none ∧ k ∈ waiting s ∧ offered k s = some r ∧ decode (.request r) = .error e) ∨
      ∃ sv e, s.service = some sv ∧ decode sv.item = .error e := by
  by_cases ha : waitingActive s = []
  · rw [turn_of_noActive ha] at h
    cases hs : s.service with
    | none =>
      rcases pickOne_cases (waiting s) s with ⟨-, hp⟩ | ⟨k, hk, d, hp⟩
      · simp only [serviceTurn, hs, hp] at h
        cases h
      · obtain ⟨r, hr⟩ := offered_of_waiting hk
        cases hd : decode (.request r) with
        | error e => exact .inl ⟨k, r, e, rfl, hk, hr, hd⟩
        | ok i =>
          simp only [serviceTurn, hs, hp] at h
          cases h.symm.trans (acceptFrom_decoded (s := { s with draws := d }) hr hd)
    | some sv =>
      cases hd : decode sv.item with
      | error e => exact .inr ⟨sv, e, rfl, hd⟩
      | ok i =>
        simp only [serviceTurn, hs, serve, hd] at h
        cases h
  · obtain ⟨k, -, d, ht⟩ := turn_waitingActive ha
    cases h.symm.trans ht

theorem step_of_refuse {s : State} {why : Refusal} (h : turn s = .refuse why) : step s = .refused why := by
  simp only [step, h]

theorem step_of_accept {s t : State} (h : turn s = .accept t) : step s = .next t := by
  simp only [step, h]

theorem step_of_run {s t : State} {i : Instr} (h : turn s = .run i t) : step s = exec i t := by
  simp only [step, h]

/-! ### Every instruction goes on -/

/-- Every arm of `exec` ends in a next state. -/
theorem exec_next (i : Instr) (s : State) : ∃ t, exec i s = .next t := by
  cases i <;> exact ⟨_, rfl⟩

/-- A step goes on wherever its turn does not refuse. -/
theorem step_next_of_not_refuse {s : State} (h : ∀ why, turn s ≠ .refuse why) : ∃ t, step s = .next t := by
  cases ht : turn s with
  | idle => exact ⟨s, by simp only [step, ht]⟩
  | accept t => exact ⟨t, step_of_accept ht⟩
  | run i t => exact step_of_run ht ▸ exec_next i t
  | refuse why => exact absurd ht (h why)

/-- Settles O13: a turn refuses only what does not decode, and every instruction goes on. -/
theorem nothingFaults : Obligations.NothingFaults := by
  refine ⟨fun s => ?step, exec_next⟩
  rcases turn_cases s with ⟨ht, -, -⟩ | ⟨k, r, i, d, -, -, -, -, -, ht⟩ | ⟨k, d, -, ht⟩ | ⟨sv, i, -, -, -, ht⟩ |
    ⟨why, ht⟩
  · exact .inl ⟨s, by simp only [step, ht]⟩
  · exact .inl ⟨_, step_of_accept ht⟩
  · exact .inl (step_of_run ht ▸ exec_next _ _)
  · exact .inl (step_of_run ht ▸ exec_next _ _)
  · exact .inr ⟨why, step_of_refuse ht⟩

/-! ### Hosts that offer only requests of the port -/

/-- What a requester offers stands in one of the queues. -/
theorem exists_mem_of_offered {s : State PinId} {k : Nat} {r : Request} (h : offered k s = some r) :
    ∃ q ∈ s.requesters, r ∈ q := by
  rw [offered, List.getD_eq_getElem?_getD] at h
  cases hq : s.requesters[k]? with
  | none => simp [hq] at h
  | some q =>
    rw [hq, Option.getD_some] at h
    exact ⟨q, List.mem_of_getElem? hq, List.mem_of_head? h⟩

/-- Where everything decodes, the turn does not refuse. -/
theorem turn_ne_refuse_of_portDecodes {s : State} (h : Spec.PortDecodes s) (why : Refusal) : turn s ≠ .refuse why := by
  obtain ⟨hq, hsv⟩ := h
  intro ht
  rcases turn_refuse ht with ⟨k, r, e, -, -, ho, hd⟩ | ⟨sv, e, hs, hd⟩
  · obtain ⟨q, hqm, hr⟩ := exists_mem_of_offered ho
    obtain ⟨i, hi⟩ := hq q hqm r hr
    cases hi.symm.trans hd
  · obtain ⟨i, hi⟩ := hsv sv hs
    cases hi.symm.trans hd

/-- Taking an offer leaves in the queues only what stood in them. -/
theorem exists_mem_of_mem_modify_tail {qs : List (List Request)} {k : Nat} {q : List Request}
    (h : q ∈ qs.modify k List.tail) : ∃ q' ∈ qs, q ⊆ q' := by
  obtain ⟨j, hj, rfl⟩ := List.getElem_of_mem h
  rw [List.length_modify] at hj
  refine ⟨qs[j], List.getElem_mem hj, ?_⟩
  rw [List.getElem_modify]
  split
  · exact List.tail_subset _
  · exact List.Subset.refl _

/-- Where all waiting requests decode, so do those that wait after an offer is taken. -/
theorem decodes_modify_tail {qs : List (List Request)} (h : ∀ q ∈ qs, ∀ r ∈ q, ∃ i, decode (.request r) = .ok i)
    (k : Nat) : ∀ q ∈ qs.modify k List.tail, ∀ r ∈ q, ∃ i, decode (.request r) = .ok i := by
  intro q hq r hr
  obtain ⟨q', hq', hsub⟩ := exists_mem_of_mem_modify_tail hq
  exact h q' hq' r (hsub hr)

/-- A step that goes on keeps the port decodable: it takes an offer that decodes into service, or frees the port. -/
theorem step_portDecodes {s t : State} (h : Spec.PortDecodes s) (hst : step s = .next t) : Spec.PortDecodes t := by
  obtain ⟨hq, hsv⟩ := h
  rcases step_cases hst with ⟨-, -, rfl⟩ | ⟨k, r, i, d, -, -, -, -, hi, rfl⟩ | ⟨k, d, -, hx⟩ | ⟨sv, i, -, -, -, hx⟩
  · exact ⟨hq, hsv⟩
  · refine ⟨decodes_modify_tail hq k, fun sv hs => ?_⟩
    cases hs
    exact ⟨i, hi⟩
  · cases hx
    exact ⟨decodes_modify_tail hq k, hsv⟩
  · obtain ⟨hserv, hreq⟩ := exec_port hx
    exact ⟨fun q hm => hq q (hreq ▸ hm), fun sv hs => by cases hserv.symm.trans hs⟩

/-- Settles O12: nothing is refused where everything decodes, and a step that goes on keeps it so. -/
theorem decodablePortNeverStops : Obligations.DecodablePortNeverStops := by
  intro s h
  obtain ⟨t, ht⟩ := step_next_of_not_refuse (turn_ne_refuse_of_portDecodes h)
  exact ⟨t, ht, step_portDecodes h ht⟩

/-! ### Reserved ops (30_encoding R54) -/

theorem decodeRequest_of_reserved {r : Request} (h : r.op = 0 ∨ 9 ≤ r.op.toNat) :
    decodeRequest r = .error (.reservedOp r.op) := by
  have unlisted : ∀ op : BitVec 4, (op = 0 ∨ 9 ≤ op.toNat) →
      op ≠ 1 ∧ op ≠ 2 ∧ op ≠ 3 ∧ op ≠ 4 ∧ op ≠ 5 ∧ op ≠ 6 ∧ op ≠ 7 ∧ op ≠ 8 := by decide
  obtain ⟨h1, h2, h3, h4, h5, h6, h7, h8⟩ := unlisted r.op h
  simp only [decodeRequest, h1, h2, h3, h4, h5, h6, h7, h8, if_false]

theorem step_of_undecodable_service {s : State} {sv : Service} {e : Reject} (hs : s.service = some sv)
    (ha : waitingActive s = []) (hd : decode sv.item = .error e) : step s = .refused (.undecodable e) :=
  step_of_refuse (by simp only [turn_of_service hs ha, serve, hd])

theorem step_of_undecodable_offer {s : State} {k : Nat} {r : Request} {e : Reject} (hs : s.service = none)
    (ha : waitingActive s = []) (hw : waiting s = [k]) (hr : offered k s = some r)
    (hd : decode (.request r) = .error e) : step s = .refused (.undecodable e) :=
  step_of_refuse (by simp only [turn_of_free hs ha hw, acceptFrom, hr, hd])

/-- Settles O5: such an op is none of the eight listed, so it is refused wherever it is decoded. -/
theorem reservedOpsRefused : Obligations.ReservedOpsRefused := by
  intro r hop
  have hd : decode (.request r) = .error (.reservedOp r.op) := decodeRequest_of_reserved hop
  refine ⟨hd, fun s sv hs hi ha => step_of_undecodable_service hs ha (hi ▸ hd), fun s k hs hw hr => ?offer⟩
  have hne : r ≠ { op := 0x8, operands := .none } := by
    rintro rfl
    exact absurd hop (by decide)
  exact step_of_undecodable_offer hs (waitingActive_eq_nil hw hr hne) hw hr hd

/-! ### What a step does -/

/-- Settles O6: the turn serves the item, which decodes. -/
theorem stepRunsItemInService : Obligations.StepRunsItemInService :=
  fun _ _ _ hs ha hi => step_of_run (by simp only [turn_of_service hs ha, serve, hi])

/-- Settles O7: the turn of a quiescent port idles. -/
theorem quiescentBlockWaits : Obligations.QuiescentBlockWaits := by
  intro s h
  simp only [quiescent, State.busy, Bool.and_eq_true, Bool.not_eq_true', Option.isSome_eq_false_iff,
    Option.isNone_iff_eq_none, List.isEmpty_iff] at h
  simp only [step, turn_of_quiescent h.1 h.2]

/-- Settles O8: an `Active` is the one waiting `Active`, any other request the one that a free port accepts. -/
theorem freePortAccepts : Obligations.FreePortAccepts := by
  intro s k r i hs hw hr hi
  refine ⟨?active, ?accepted⟩
  case active =>
    rintro rfl
    obtain rfl := decode_eq_reqActive hi
    exact step_of_run (turn_of_active (waitingActive_eq_singleton hs hw hr))
  case accepted =>
    intro hne
    have hra : r ≠ { op := 0x8, operands := .none } := by
      rintro rfl
      exact hne (Except.ok.inj hi).symm
    have ht := (turn_of_free hs (waitingActive_eq_nil hw hr hra) hw).trans (acceptFrom_decoded hr hi)
    exact ⟨_, step_of_accept ht, rfl, rfl⟩

/-- A waiting `Active` is answered by the step, with the flag and nothing else. -/
theorem step_waitingActive {s : State} (h : waitingActive s ≠ []) :
    ∃ k ∈ waitingActive s, ∃ d, step s = .next (answer .ok (some s.active) { takeOffer k s with draws := d }) := by
  obtain ⟨k, hk, d, ht⟩ := turn_waitingActive h
  exact ⟨k, hk, d, step_of_run ht⟩

/-- Settles O10: the turn of a port where an `Active` waits answers one of them. -/
theorem activeNeverWaits : Obligations.ActiveNeverWaits := by
  intro s h
  obtain ⟨k, hk, d, hst⟩ := step_waitingActive h
  obtain ⟨-, -, ho⟩ := mem_waitingActive.mp hk
  exact ⟨k, hk, d, ho, hst⟩

/-- Settles O9: of the turns of a port, only acceptance and the answer to an `Active` are left. -/
theorem oneWaitingRequestIsAccepted : Obligations.OneWaitingRequestIsAccepted := by
  intro s hs hw hdec
  rcases turn_cases s with ⟨-, -, hn⟩ | ⟨k, r, i, d, -, ha, hk, hr, -, ht⟩ | ⟨k, d, hk, ht⟩ | ⟨sv, i, hsv, -⟩ |
    ⟨why, ht⟩
  · exact absurd hn hw
  · exact ⟨k, hk, r, _, hr, step_of_accept ht, rfl, rfl, .inl ⟨ha, rfl, rfl⟩⟩
  · obtain ⟨hkw, -, ho⟩ := mem_waitingActive.mp hk
    exact ⟨k, hkw, _, _, ho, step_of_run ht, rfl, rfl, .inr ⟨rfl, hs, rfl⟩⟩
  · cases hs.symm.trans hsv
  · rcases turn_refuse ht with ⟨k, r, e, -, hk, hr, hd⟩ | ⟨sv, e, hsv, -⟩
    · obtain ⟨i, hi⟩ := hdec k hk r hr
      cases hi.symm.trans hd
    · cases hs.symm.trans hsv

/-- Settles O11, by the four ways a step goes on. -/
theorem waitingRequestsNeverDropped : Obligations.WaitingRequestsNeverDropped := by
  intro s t h
  rcases step_cases h with ⟨-, -, rfl⟩ | ⟨k, r, i, d, -, -, -, hr, -, rfl⟩ | ⟨k, d, hk, hx⟩ | ⟨sv, i, -, -, -, hx⟩
  · exact .inl rfl
  · exact .inr ⟨k, r, hr, rfl, .inl rfl⟩
  · obtain ⟨-, -, ho⟩ := mem_waitingActive.mp hk
    cases hx
    exact .inr ⟨k, _, ho, rfl, .inr ⟨rfl, rfl⟩⟩
  · exact .inl (exec_port hx).2

/-! ### Responses and trace -/

theorem responsesOf_request {i : Instr} (h : Spec.isRequest i = true) (s : State PinId) :
    ∃ r, responsesOf i s = [r] := by
  cases i with
  | reqOpen | reqClose | reqReset | reqClear | reqDisplay _ _ | reqSetChar _ _ | reqToggleBacklight | reqActive =>
    exact ⟨_, rfl⟩
  | _ => cases h

theorem responsesOf_output {i : Instr} (h : Spec.isRequest i = false) (s : State PinId) : responsesOf i s = [] := by
  cases i with
  | reqOpen | reqClose | reqReset | reqClear | reqDisplay _ _ | reqSetChar _ _ | reqToggleBacklight | reqActive =>
    cases h
  | _ => rfl

/-- Settles O14, by what an instruction adds to the responses. -/
theorem oneResponsePerRequest : Obligations.OneResponsePerRequest := by
  intro i s t h
  rw [exec_responses h]
  cases hi : Spec.isRequest i with
  | true =>
    obtain ⟨r, hr⟩ := responsesOf_request hi s
    exact ⟨r, by rw [hr]⟩
  | false => simp [responsesOf_output hi s]

theorem responsesOf_length_le (i : Instr) (s : State PinId) : (responsesOf i s).length ≤ 1 := by
  cases hi : Spec.isRequest i with
  | true =>
    obtain ⟨r, hr⟩ := responsesOf_request hi s
    simp [hr]
  | false => simp [responsesOf_output hi s]

/-- Every instruction appends to the trace. -/
theorem exec_trace {i : Instr} {s t : State} (h : exec i s = .next t) : ∃ evs, t.trace = s.trace ++ evs := by
  cases hi : Spec.isRequest i with
  | true =>
    obtain ⟨evs, ht, -⟩ := exec_request_emits hi h
    exact ⟨evs, ht⟩
  | false =>
    cases i with
    | reqOpen | reqClose | reqReset | reqClear | reqDisplay _ _ | reqSetChar _ _ | reqToggleBacklight | reqActive =>
      cases hi
    | _ => cases h; exact ⟨_, rfl⟩

/-- Every instruction appends to the trace and to the responses, and to these one at most. -/
theorem exec_appends {i : Instr} {s t : State} (h : exec i s = .next t) :
    ∃ evs rs, t.trace = s.trace ++ evs ∧ t.responses = s.responses ++ rs ∧ rs.length ≤ 1 := by
  obtain ⟨evs, ht⟩ := exec_trace h
  exact ⟨evs, _, ht, exec_responses h, responsesOf_length_le i s⟩

/-- Settles O15: a step runs an instruction, or leaves trace and responses. -/
theorem traceOnlyGrows : Obligations.TraceOnlyGrows := by
  intro s t h
  rcases step_cases h with ⟨-, -, rfl⟩ | ⟨k, r, i, d, -, -, -, -, -, rfl⟩ | ⟨k, d, -, hx⟩ | ⟨sv, i, -, -, -, hx⟩
  · exact ⟨[], [], by simp, by simp, by simp⟩
  · exact ⟨[], [], by simp, by simp, by simp⟩
  · exact (exec_appends hx :)
  · exact (exec_appends hx :)

/-- Settles O54: no instruction writes it, and a step changes only what the port holds beside. -/
theorem configurationNeverChanges : Obligations.ConfigurationNeverChanges :=
  ⟨fun _ _ _ => exec_cfg, fun _ _ => step_cfg⟩

end Sys2Proof.Machine
end

section
/-! PROOFS. Operands and construction (10_state R33, 41_line_address_map, 42_redraw_cache R88, R93, R94): normalization,
the segments of a text, the cells of the lines, and which configurations construct a block. -/

namespace Sys2Proof.Machine

variable {PinId : Type}

/-! ### Normalization (42 R88) -/

theorem normalize_eq_shownText (w : Nat) (text : Text) : normalize w text = Spec.shownText w text := by
  unfold normalize Spec.shownText
  split
  · next h => rw [List.take_append_of_le_length h]
  · next h =>
    have hw : text.length ≤ w := by omega
    rw [List.take_append, List.take_of_length_le hw, List.take_replicate, Nat.min_eq_left (Nat.sub_le _ _)]
    rfl

@[simp] theorem normalize_length (w : Nat) (text : Text) : (normalize w text).length = w := by
  simp [normalize_eq_shownText, Spec.shownText]

/-- A text of `w` bytes is kept. -/
theorem normalize_of_length_eq {w : Nat} {text : Text} (h : text.length = w) : normalize w text = text := by
  rw [normalize, if_pos h.ge, List.take_of_length_le h.le]

/-- The empty text is a line of spaces. -/
theorem shownText_nil (w : Nat) : Spec.shownText w [] = List.replicate w 0x20 := by
  simp [Spec.shownText]

/-- Settles O49: padding and cutting are one `take`, which keeps a text of `w` bytes. -/
theorem normalizePadsAndCuts : Obligations.NormalizePadsAndCuts :=
  fun w text => ⟨normalize_eq_shownText w text, normalize_length w text,
    normalize_of_length_eq (normalize_length w text)⟩

/-! ### The segments of a text (42 R93, R94) -/

theorem splitLines_ne_nil (text : Text) : splitLines text ≠ [] := by
  cases text with
  | nil => exact List.cons_ne_nil _ _
  | cons b rest =>
    unfold splitLines
    split
    · exact List.cons_ne_nil _ _
    · split <;> exact List.cons_ne_nil _ _

/-- A line break begins a segment. -/
theorem splitLines_break (rest : Text) : splitLines (lineBreak :: rest) = [] :: splitLines rest := by
  rw [splitLines, if_pos rfl]

/-- Any other byte goes to the first segment of the rest. -/
theorem splitLines_byte {b : Byte} (h : b ≠ lineBreak) (rest : Text) :
    ∃ seg segs, splitLines rest = seg :: segs ∧ splitLines (b :: rest) = (b :: seg) :: segs := by
  obtain ⟨seg, segs, hrest⟩ := List.exists_cons_of_ne_nil (splitLines_ne_nil rest)
  exact ⟨seg, segs, hrest, by simp only [splitLines, if_neg h, hrest]⟩

theorem splitLines_length (text : Text) : (splitLines text).length = text.count lineBreak + 1 := by
  induction text with
  | nil => rfl
  | cons b rest ih =>
    by_cases hb : b = lineBreak
    · subst hb
      rw [splitLines_break, List.length_cons, ih, List.count_cons_self]
    · obtain ⟨seg, segs, hrest, hsplit⟩ := splitLines_byte hb rest
      rw [hsplit, List.count_cons_of_ne hb, ← ih, hrest, List.length_cons, List.length_cons]

theorem lineBreak_notMem_splitLines (text : Text) : ∀ seg ∈ splitLines text, lineBreak ∉ seg := by
  induction text with
  | nil => simp [splitLines]
  | cons b rest ih =>
    by_cases hb : b = lineBreak
    · subst hb
      rw [splitLines_break]
      exact List.forall_mem_cons.mpr ⟨List.not_mem_nil, ih⟩
    · obtain ⟨seg, segs, hrest, hsplit⟩ := splitLines_byte hb rest
      rw [hrest] at ih
      obtain ⟨hseg, hsegs⟩ := List.forall_mem_cons.mp ih
      rw [hsplit]
      exact List.forall_mem_cons.mpr ⟨fun hm => (List.mem_cons.mp hm).elim (Ne.symm hb) hseg, hsegs⟩

theorem intercalate_splitLines (text : Text) : [lineBreak].intercalate (splitLines text) = text := by
  induction text with
  | nil => rfl
  | cons b rest ih =>
    by_cases hb : b = lineBreak
    · subst hb
      rw [splitLines_break, List.intercalate_cons_of_ne_nil (splitLines_ne_nil rest), ih]
      rfl
    · obtain ⟨seg, segs, hrest, hsplit⟩ := splitLines_byte hb rest
      rw [hrest] at ih
      rw [hsplit, ← ih]
      cases segs with
      | nil => simp only [List.intercalate_singleton]
      | cons seg' segs => simp only [List.intercalate_cons_cons, List.cons_append]

/-- Settles O50, by induction on the text: a line break begins a segment, any other byte goes to the first. -/
theorem splitCutsAtLineBreaks : Obligations.SplitCutsAtLineBreaks :=
  fun text => ⟨splitLines_length text, lineBreak_notMem_splitLines text, intercalate_splitLines text⟩

/-- Settles O51: the requests are mapped from the segments, and the host offers the index itself as the line. -/
theorem displayLinesExpands : Obligations.DisplayLinesExpands := by
  intro text
  refine ⟨List.length_mapIdx, fun k seg hk => ⟨displayRequest seg k, ?_, rfl⟩⟩
  rw [displayLines, List.getElem?_mapIdx, hk, Option.map_some]

/-! ### The cells of the lines -/

/-- Settles O46: the cells of every geometry, line by line. -/
theorem lineRangesDisjoint : Obligations.LineRangesDisjoint := by
  intro g i j hi hj
  revert j
  revert i
  cases g <;> decide

/-! ### Construction (10_state R21, R33) -/

theorem exists_geometryOf_of_mem {width lines : Nat} (h : (width, lines) ∈ [(16, 2), (16, 4), (20, 4)]) :
    ∃ g, geometryOf width lines = some g := by
  simp only [List.mem_cons, Prod.mk.injEq, List.not_mem_nil, or_false] at h
  rcases h with ⟨rfl, rfl⟩ | ⟨rfl, rfl⟩ | ⟨rfl, rfl⟩
  · exact ⟨.g16x2, rfl⟩
  · exact ⟨.g16x4, rfl⟩
  · exact ⟨.g20x4, rfl⟩

/-- A 7-bit address is its byte. -/
theorem busAddress_toNat : ∀ a : Byte, a.getLsbD 7 = false → (a.extractLsb' 0 7).toNat = a.toNat := by decide

/-- A transport that passes the check is kept: the pins as they are, the address as a number. -/
theorem transportOf_of_ok [DecidableEq PinId] {rt : RawTransport PinId} (h : rt.ok = true) :
    ∃ t, transportOf rt = .ok t ∧ (∀ pins, rt = .gpio pins → t = .gpio pins) ∧
      ∀ b, rt = .i2c b → ∃ a, t = .i2c a ∧ a.toNat = b.toNat := by
  cases rt with
  | gpio pins => exact ⟨_, if_pos h, fun _ hp => by cases hp; rfl, nofun⟩
  | i2c a =>
    have h7 : a.getLsbD 7 = false := by simpa [RawTransport.ok] using h
    refine ⟨_, if_neg (by simp only [h7, Bool.false_eq_true, not_false_iff]), nofun, fun _ hb => ?_⟩
    cases hb
    exact ⟨_, rfl, busAddress_toNat a h7⟩

theorem transportOf_of_not_ok [DecidableEq PinId] {rt : RawTransport PinId} (h : rt.ok = false) :
    ∃ why, transportOf rt = .error why := by
  cases rt with
  | gpio pins => exact ⟨_, if_neg (by simpa [RawTransport.ok] using h)⟩
  | i2c a => exact ⟨_, if_pos (by simpa [RawTransport.ok] using h)⟩

theorem construct_of_ok [DecidableEq PinId] {r : RawConfig PinId} {g : Geometry} {t : Transport PinId}
    (hg : geometryOf r.width r.lines = some g) (ht : transportOf r.transport = .ok t) :
    construct r =
      .next (State.fresh { transport := t, geometry := g, timing := r.timing, switches := r.switches }) := by
  simp only [construct, hg, ht]

theorem construct_of_transport_error [DecidableEq PinId] {r : RawConfig PinId} {g : Geometry} {why : Refusal}
    (hg : geometryOf r.width r.lines = some g) (ht : transportOf r.transport = .error why) :
    construct r = .refused why := by
  simp only [construct, hg, ht]

/-- Settles O48: the two checks are the two things construction looks for. -/
theorem constructionGivesTheStateOfR33 : Obligations.ConstructionGivesTheStateOfR33 := by
  intro PinId _ r
  refine ⟨fun hwf => ?constructed, fun hwf => ?refused⟩
  case constructed =>
    obtain ⟨hgeometry, htransport⟩ := Bool.and_eq_true_iff.mp hwf
    obtain ⟨g, hg⟩ := exists_geometryOf_of_mem (of_decide_eq_true hgeometry)
    obtain ⟨t, ht, hpins, haddr⟩ := transportOf_of_ok htransport
    obtain ⟨hw, hl⟩ := geometryOf_eq_some_iff.mp hg
    exact ⟨_, construct_of_ok hg ht, hw, hl, rfl, rfl, hpins, haddr, rfl, rfl, congrArg (List.replicate · none) hl,
      rfl, rfl, rfl, rfl⟩
  case refused =>
    by_cases hg : (r.width, r.lines) ∈ [(16, 2), (16, 4), (20, 4)]
    · obtain ⟨g, hg'⟩ := exists_geometryOf_of_mem hg
      have htransport : r.transport.ok = false := by
        simpa [RawConfig.wf, RawConfig.geometryOk, hg] using hwf
      obtain ⟨why, ht⟩ := transportOf_of_not_ok htransport
      exact ⟨why, construct_of_transport_error hg' ht⟩
    · exact ⟨_, construct_of_geometryOf_none (geometryOf_eq_none hg)⟩

end Sys2Proof.Machine
end

section
/-! PROOFS. The block's invariant (10_state R21 to R25, R30, R32): what each instruction does to the lines, the
transport, the cache and the backlight, and that every step keeps the invariant. -/

namespace Sys2Proof.Machine

variable {PinId : Type}

/-! ### The lines are where the trace drives them -/

/-- The trace of `t` is that of `s` and more, and its lines are where the events added drive those of `s`. -/
def Drives (s t : State PinId) : Prop :=
  ∃ evs, t.trace = s.trace ++ evs ∧ t.lines = applyEvents s.lines evs

namespace Drives

variable {s t u : State PinId}

theorem refl (s : State PinId) : Drives s s := ⟨[], (List.append_nil _).symm, rfl⟩

/-- A further run of events. -/
theorem emit (h : Drives s t) (evs : List Event) : Drives s (emit evs t) := by
  obtain ⟨xs, ht, hl⟩ := h
  exact ⟨xs ++ evs, by rw [emit_trace, ht, List.append_assoc], by rw [emit_lines, hl, applyEvents_append]⟩

/-- A further write of neither the trace nor the lines. -/
theorem quiet (h : Drives s t) (ht : u.trace = t.trace) (hl : u.lines = t.lines) : Drives s u := by
  rwa [Drives, ht, hl]

theorem answer (h : Drives s t) (code : ResponseCode) (value : Option Bool) : Drives s (answer code value t) :=
  h.quiet rfl rfl

theorem respondOk (h : Drives s t) : Drives s (respondOk t) := h.quiet rfl rfl

theorem setActive (h : Drives s t) (v : Bool) : Drives s (setActive v t) := h.quiet rfl rfl

theorem fillCache (h : Drives s t) (entry : Option Text) : Drives s (fillCache entry t) := h.quiet rfl rfl

theorem ite {p : Prop} [Decidable p] (ht : Drives s t) (hu : Drives s u) : Drives s (if p then t else u) := by
  split
  · exact ht
  · exact hu

/-- `BL` moves no line. -/
theorem lightBacklight (h : Drives s t) (v : Bool) : Drives s (lightBacklight v t) :=
  .ite (Drives.emit (h.quiet rfl rfl : Drives s (setBacklight v t)) [.bl v]) h

theorem openWith (h : Drives s t) (ok : Bool) : Drives s (openWith ok t) :=
  .ite ((((h.emit _).lightBacklight _).fillCache _).emit _ |>.setActive _ |>.respondOk) (h.answer _ _)

theorem closeActive (h : Drives s t) : Drives s (closeActive t) :=
  ((((h.emit _).fillCache _).emit _).lightBacklight _).emit _ |>.setActive _ |>.respondOk

theorem resetActive (h : Drives s t) : Drives s (resetActive t) :=
  .respondOk (.ite ((h.emit _).fillCache _) (h.emit _))

theorem displayLine (h : Drives s t) (i : Nat) (text : Text) : Drives s (displayLine i text t) :=
  .ite h.respondOk ((h.emit _).quiet rfl rfl)

end Drives

/-- No instruction writes the lines but through the events it emits (10_state R25). -/
theorem exec_drives {i : Instr} {s t : State} (h : exec i s = .next t) : Drives s t := by
  cases i with
  | reqOpen => cases h; exact .ite (Drives.refl s).respondOk (((Drives.refl s).quiet (by simp) (by simp)).openWith _)
  | reqClose => cases h; exact .ite (Drives.refl s).closeActive (Drives.refl s).respondOk
  | reqReset => cases h; exact .ite (Drives.refl s).resetActive (Drives.refl s).respondOk
  | reqClear => cases h; exact .ite (((Drives.refl s).emit _).fillCache _).respondOk (Drives.refl s).respondOk
  | reqDisplay line text => cases h; exact .ite ((Drives.refl s).displayLine _ _) (Drives.refl s).respondOk
  | reqSetChar position definition =>
    cases h
    exact .ite ((Drives.refl s).answer _ _) (.ite ((Drives.refl s).emit _).respondOk (Drives.refl s).respondOk)
  | reqToggleBacklight => cases h; exact .ite ((Drives.refl s).lightBacklight _).respondOk (Drives.refl s).respondOk
  | reqActive => cases h; exact (Drives.refl s).answer _ _
  | _ => cases h; exact (Drives.refl s).emit _

/-- The events an instruction adds drive the lines. -/
theorem exec_lines {i : Instr} {s t : State} {evs : List Event} (h : exec i s = .next t)
    (ht : t.trace = s.trace ++ evs) : t.lines = applyEvents s.lines evs := by
  obtain ⟨xs, hx, hl⟩ := exec_drives h
  rwa [List.append_cancel_left (ht.symm.trans hx)]

/-! ### Runs of events that leave the transport held and the lines at rest -/

/-- What holds of no events and of two runs together holds of a run put together from runs it holds of. -/
theorem flatMap_of_append {α : Type} {P : List Event → Prop} (nil : P [])
    (append : ∀ {us vs : List Event}, P us → P vs → P (us ++ vs)) {f : α → List Event} {xs : List α}
    (h : ∀ x ∈ xs, P (f x)) : P (xs.flatMap f) := by
  induction xs with
  | nil => exact nil
  | cons x xs ih =>
    obtain ⟨hx, hxs⟩ := List.forall_mem_cons.mp h
    rw [List.flatMap_cons]
    exact append hx (ih hxs)

/-- Every line is driven, and E is low. -/
def AtRest (ls : Lines) : Prop := Safety.AllDriven ls ∧ ls.e = .low

theorem levelOf_ne_z (v : Bool) : levelOf v ≠ .z := by cases v <;> decide

theorem atRest_linesShowing (v : Bool) (n : Nibble) : AtRest (linesShowing (levelOf v) n) := by
  simp [AtRest, Safety.AllDriven, linesShowing, levelOf_ne_z]

/-- A run of events that neither acquires nor releases the transport and leaves lines that are at rest at rest. -/
structure Steady (evs : List Event) : Prop where
  held : ∀ held, evs.foldl heldAfter held = held
  rest : ∀ ls, AtRest ls → AtRest (applyEvents ls evs)

namespace Steady

theorem nil : Steady [] := ⟨fun _ => rfl, fun _ h => h⟩

theorem append {xs ys : List Event} (h : Steady xs) (k : Steady ys) : Steady (xs ++ ys) :=
  ⟨fun held => by rw [List.foldl_append, h.held, k.held],
    fun ls hl => by rw [applyEvents_append]; exact k.rest _ (h.rest ls hl)⟩

theorem wait (d : Delay) : Steady [.wait d] := ⟨fun _ => rfl, fun _ h => h⟩

theorem bl (v : Bool) : Steady [.bl v] := ⟨fun _ => rfl, fun _ h => h⟩

theorem writeByte (v : Byte) (rs : Bool) : Steady (writeByte v rs) :=
  ⟨fun held => held_writeByte held v rs, fun ls _ => by rw [applyEvents_writeByte]; exact atRest_linesShowing _ _⟩

theorem write4Bits (c : Config PinId) (v : Byte) (rs : Bool) : Steady (write4Bits c v rs) :=
  ⟨fun held => held_write4Bits held c v rs, fun ls _ => by rw [applyEvents_write4Bits]; exact atRest_linesShowing _ _⟩

theorem command (v : Byte) : Steady (command v) := writeByte v false

theorem characters (t : Text) : Steady (characters t) :=
  flatMap_of_append nil append fun b _ => writeByte b true

theorem lineWrite (a : Byte) (t : Text) : Steady (lineWrite a t) := (command a).append (characters t)

theorem clearLines (g : Geometry) : Steady (clearLines g) :=
  flatMap_of_append nil append fun a _ => lineWrite a _

theorem clearCommand : Steady clearCommand := (command 0x01).append (wait .clear)

theorem initSeq (c : Config PinId) : Steady (initSeq c) := by
  have nibble (v : Byte) : Steady (Machine.write4Bits c v false) := write4Bits c v false
  exact (nibble 3).append (wait _) |>.append (nibble 3) |>.append (wait _) |>.append (nibble 3) |>.append (wait _)
    |>.append (nibble 2) |>.append (wait _) |>.append (command _) |>.append (command _) |>.append (command _)
    |>.append clearCommand

end Steady

/-- Does the instruction acquire the transport: an `Open` of an inactive block whose draw succeeds? -/
def Acquires (i : Instr) (s : State PinId) : Prop := i = .reqOpen ∧ s.active = false ∧ (drawAcquire s).1 = true

/-- Does the instruction release it: a `Close` of an active block? -/
def Releases (i : Instr) (s : State PinId) : Prop := i = .reqClose ∧ s.active = true

/-- Every request adds a steady run, but for the `Open` that acquires the transport and the `Close` that releases it. -/
theorem Emits.steady {s : State PinId} {i : Instr} {evs : List Event} (h : Emits s i evs) :
    Steady evs ∨ Acquires i s ∨ Releases i s := by
  cases h with
  | silent => exact .inl .nil
  | opens h k => exact .inr (.inl ⟨rfl, h, k⟩)
  | closes h => exact .inr (.inr ⟨rfl, h⟩)
  | resets => exact .inl (.initSeq _)
  | clears => exact .inl (.clearLines _)
  | displays => exact .inl (.lineWrite _ _)
  | draws => exact .inl (.lineWrite _ _)
  | lights => exact .inl (.bl _)

/-- Every output pattern adds a steady run. -/
theorem exec_output_steady {i : Instr} {s t : State} (hi : Spec.isRequest i = false) (h : exec i s = .next t) :
    ∃ evs, t.trace = s.trace ++ evs ∧ Steady evs := by
  cases i with
  | reqOpen | reqClose | reqReset | reqClear | reqDisplay _ _ | reqSetChar _ _ | reqToggleBacklight | reqActive =>
    cases hi
  | outInitNibble3 | outInitNibble2 => cases h; exact ⟨_, rfl, .write4Bits _ _ _⟩
  | outClearDisplay => cases h; exact ⟨_, rfl, .clearCommand⟩
  | _ => cases h; exact ⟨_, rfl, .writeByte _ _⟩

/-! ### `active` holds exactly while the transport is held -/

/-- Every other instruction keeps `active` and adds a steady run. -/
theorem exec_steady {i : Instr} {s t : State} (h : exec i s = .next t) (hopen : ¬Acquires i s)
    (hclose : ¬Releases i s) : t.active = s.active ∧ ∃ evs, t.trace = s.trace ++ evs ∧ Steady evs := by
  refine ⟨?active, ?steady⟩
  case active =>
    by_contra hne
    rcases exec_writes_active h hne with ⟨rfl, ht⟩ | ⟨rfl, ht⟩
    · have hs : s.active = false := by simpa [ht] using hne
      exact hopen ⟨rfl, hs, by simpa [hs, ht] using (execReqOpen_active h).symm⟩
    · exact hclose ⟨rfl, by simpa [ht] using hne⟩
  case steady =>
    cases hi : Spec.isRequest i with
    | false => exact exec_output_steady hi h
    | true =>
      obtain ⟨evs, ht, emits⟩ := exec_request_emits hi h
      rcases emits.steady with hs | ho | hc
      · exact ⟨evs, ht, hs⟩
      · exact absurd ho hopen
      · exact absurd hc hclose

/-- A steady run keeps the transport held and the lines at rest. -/
theorem heldWhenActive_of_steady {s t : State} {evs : List Event} (h : Safety.HeldWhenActive s)
    (ha : t.active = s.active) (ht : t.trace = s.trace ++ evs) (hl : t.lines = applyEvents s.lines evs)
    (hs : Steady evs) : Safety.HeldWhenActive t := by
  obtain ⟨held, rest⟩ := h
  refine ⟨?_, fun hta => hl ▸ hs.rest _ (rest (ha ▸ hta))⟩
  rw [ha, ht, transportHeld_append, hs.held, held]

/-- An `Open` that acquires the transport ends with the initialization sequence. -/
theorem heldWhenActive_of_acquires {i : Instr} {s t : State} (h : exec i s = .next t) (ha : Acquires i s) :
    Safety.HeldWhenActive t := by
  obtain ⟨rfl, hs, hd⟩ := ha
  have active : t.active = true := by rw [execReqOpen_active h, hd, Bool.or_true]
  have opened : ∃ before, t.trace = s.trace ++ (([.acq, .low] ++ before) ++ initSeq s.cfg) ∧ Steady before := by
    obtain ⟨evs, ht, emits⟩ := execReqOpen_emits h
    cases emits with
    | silent _ quiet => simp [hs, hd] at quiet
    | opens =>
      refine ⟨_, ht, ?_⟩
      split
      · exact .bl _
      · exact .nil
  obtain ⟨before, ht, steady⟩ := opened
  have held : transportHeld t.trace = true := by
    rw [ht, transportHeld_append, List.foldl_append, (Steady.initSeq s.cfg).held, List.foldl_append, steady.held]
    rfl
  have lines : t.lines = Spec.linesAfterInit := by
    rw [exec_lines h ht, applyEvents_append, applyEvents_initSeq]
  refine ⟨by simp only [active, held], fun _ => ?_⟩
  rw [lines]
  exact atRest_linesShowing false 1

/-- A `Close` of an active block ends with `REL`. -/
theorem heldWhenActive_of_releases {i : Instr} {s t : State} (h : exec i s = .next t) (hr : Releases i s) :
    Safety.HeldWhenActive t := by
  obtain ⟨rfl, hs⟩ := hr
  have active : t.active = false := execReqClose_active h
  have held : transportHeld t.trace = false := by
    obtain ⟨evs, ht, emits⟩ := execReqClose_emits h
    cases emits with
    | silent =>
      cases h
      simp [hs, closeActive_trace] at ht
    | closes => rw [ht, transportHeld_append, List.foldl_append]; rfl
  exact ⟨by simp only [active, held], fun hta => by simp [active] at hta⟩

theorem exec_heldWhenActive {i : Instr} {s t : State} (hs : Safety.HeldWhenActive s) (h : exec i s = .next t) :
    Safety.HeldWhenActive t := by
  by_cases ho : Acquires i s
  · exact heldWhenActive_of_acquires h ho
  · by_cases hc : Releases i s
    · exact heldWhenActive_of_releases h hc
    · obtain ⟨ha, evs, ht, steady⟩ := exec_steady h ho hc
      exact heldWhenActive_of_steady hs ha ht (exec_lines h ht) steady

/-! ### The cache (10_state R24) -/

/-- What an instruction can leave in the cache. -/
inductive CacheAfter (s : State PinId) : Instr → List (Option Text) → Prop where
  | same (i : Instr) : CacheAfter s i s.cache
  | emptiedByOpen : CacheAfter s .reqOpen (List.replicate s.cfg.geometry.lines none)
  | emptiedByReset (h : s.cfg.switches.resetInvalidatesCache = true) :
      CacheAfter s .reqReset (List.replicate s.cfg.geometry.lines none)
  | blanked (i : Instr) (h : i = .reqClose ∨ i = .reqClear) :
      CacheAfter s i (List.replicate s.cfg.geometry.lines (some (blankLine s.cfg.geometry.width)))
  | written (line : Int) (text : Text) (h : inRange s.cfg.geometry line = true) :
      CacheAfter s (.reqDisplay line text) (s.cache.set line.toNat (some (normalize s.cfg.geometry.width text)))

theorem CacheAfter.ite {s a b : State PinId} {i : Instr} {p : Prop} [Decidable p] (ha : p → CacheAfter s i a.cache)
    (hb : CacheAfter s i b.cache) : CacheAfter s i (if p then a else b).cache := by
  split
  · next h => exact ha h
  · exact hb

theorem closeActive_cache (s : State PinId) :
    (closeActive s).cache = List.replicate s.cfg.geometry.lines (some (blankLine s.cfg.geometry.width)) := by
  simp [closeActive]

theorem exec_cacheAfter {i : Instr} {s t : State} (h : exec i s = .next t) : CacheAfter s i t.cache := by
  cases i with
  | reqOpen =>
    cases h
    refine .ite (fun _ => .same _) ?_
    cases hd : (drawAcquire s).1 with
    | true => simpa [openWith] using .emptiedByOpen
    | false => simpa [openWith] using .same _
  | reqClose => cases h; exact .ite (fun _ => closeActive_cache s ▸ .blanked _ (.inl rfl)) (.same _)
  | reqReset =>
    cases h
    refine .ite (fun _ => ?_) (.same _)
    rw [resetActive_cache]
    split
    · next hi => exact .emptiedByReset hi
    · exact .same _
  | reqClear => cases h; exact .ite (fun _ => .blanked _ (.inr rfl)) (.same _)
  | reqDisplay line text =>
    cases h
    refine .ite (fun hr => ?_) (.same _)
    obtain ⟨-, hr⟩ := Bool.and_eq_true_iff.mp hr
    exact .ite (fun _ => .same _) (.written _ _ hr)
  | reqSetChar position definition => cases h; exact .ite (fun _ => .same _) (.ite (fun _ => .same _) (.same _))
  | reqToggleBacklight => cases h; exact .ite (fun _ => by simpa using .same _) (.same _)
  | _ => cases h; exact .same _

/-- Every instruction keeps L entries, each `None` or a text of W bytes. -/
theorem exec_cacheShaped {i : Instr} {s t : State} (hs : Safety.CacheShaped s) (h : exec i s = .next t) :
    Safety.CacheShaped t := by
  have shaped : ∀ c, CacheAfter s i c → c.length = s.cfg.geometry.lines ∧
      ∀ text : Text, some text ∈ c → text.length = s.cfg.geometry.width := by
    intro c hc
    obtain ⟨hlength, hwidth⟩ := hs
    cases hc with
    | same => exact ⟨hlength, hwidth⟩
    | emptiedByOpen | emptiedByReset =>
      exact ⟨List.length_replicate, fun text hm => by cases List.eq_of_mem_replicate hm⟩
    | blanked =>
      refine ⟨List.length_replicate, fun text hm => ?_⟩
      cases List.eq_of_mem_replicate hm
      exact List.length_replicate
    | written line text =>
      refine ⟨by rw [List.length_set, hlength], fun text' hm => ?_⟩
      rcases List.mem_or_eq_of_mem_set hm with hm | heq
      · exact hwidth text' hm
      · cases heq
        exact normalize_length _ _
  rw [Safety.CacheShaped, exec_cfg h]
  exact shaped _ (exec_cacheAfter h)

/-- The requests that write the cache (20_memory R51). -/
theorem CacheAfter.writer {s : State PinId} {i : Instr} {c : List (Option Text)} (h : CacheAfter s i c)
    (hne : c ≠ s.cache) :
    i = .reqOpen ∨ i = .reqClose ∨ i = .reqClear ∨ (∃ line text, i = .reqDisplay line text) ∨
      (i = .reqReset ∧ s.cfg.switches.resetInvalidatesCache = true) := by
  cases h with
  | same => exact absurd rfl hne
  | emptiedByOpen => exact .inl rfl
  | emptiedByReset hr => exact .inr (.inr (.inr (.inr ⟨rfl, hr⟩)))
  | blanked _ hi =>
    rcases hi with hi | hi
    · exact .inr (.inl hi)
    · exact .inr (.inr (.inl hi))
  | written line text => exact .inr (.inr (.inr (.inl ⟨line, text, rfl⟩)))

/-- `Display` writes its line's entry alone. -/
theorem CacheAfter.getElem?_of_ne {s : State PinId} {line : Int} {text : Text} {after : List (Option Text)} {j : Nat}
    (h : CacheAfter s (.reqDisplay line text) after) (hj : (j : Int) ≠ line) : after[j]? = s.cache[j]? := by
  cases h with
  | same => rfl
  | blanked _ hi => rcases hi with hi | hi <;> cases hi
  | written _ _ hr =>
    obtain ⟨h0, -⟩ := inRange_eq_true_iff.mp hr
    exact List.getElem?_set_ne (by omega)

/-- Settles O57, by what an instruction can leave in the cache. -/
theorem cacheWriters : Obligations.CacheWriters :=
  ⟨fun _ _ _ h => (exec_cacheAfter h).writer, fun _ _ _ _ _ h => (exec_cacheAfter h).getElem?_of_ne⟩

/-! ### The backlight (10_state R23) -/

/-- An `Open` lights the backlight of an I2C block whose acquisition succeeds. -/
theorem openWith_backlight (ok : Bool) (s : State PinId) :
    (openWith ok s).backlight = if ok && s.isI2c then s.cfg.switches.backlightAtOpen else s.backlight := by
  cases ok <;> cases h : s.isI2c <;> simp [openWith, h]

theorem closeActive_backlight (s : State PinId) :
    (closeActive s).backlight = if s.isI2c then false else s.backlight := by
  cases h : s.isI2c <;> simp [closeActive, h]

theorem displayLine_backlight (i : Nat) (text : Text) (s : State PinId) :
    (displayLine i text s).backlight = s.backlight := by
  unfold displayLine
  split <;> rfl

/-- Every instruction but three keeps the backlight. -/
theorem exec_backlight_of_ne {i : Instr} {s t : State} (h : exec i s = .next t) (ho : i ≠ .reqOpen)
    (hc : i ≠ .reqClose) (ht : i ≠ .reqToggleBacklight) : t.backlight = s.backlight := by
  cases i with
  | reqOpen => exact absurd rfl ho
  | reqClose => exact absurd rfl hc
  | reqToggleBacklight => exact absurd rfl ht
  | reqReset => exact execReqReset_backlight h
  | reqClear => cases h; split <;> rfl
  | reqDisplay line text => cases h; split <;> simp [displayLine_backlight]
  | reqSetChar position definition =>
    cases h
    split
    · rfl
    · split <;> rfl
  | _ => cases h; rfl

/-- In the GPIO variant every instruction keeps it. -/
theorem exec_backlight_of_gpio {i : Instr} {s t : State} (h : exec i s = .next t) (hs : s.isI2c = false) :
    t.backlight = s.backlight := by
  by_cases ho : i = .reqOpen
  · subst ho; cases h; split <;> simp [openWith_backlight, hs]
  · by_cases hc : i = .reqClose
    · subst hc; cases h; split <;> simp [closeActive_backlight, hs]
    · by_cases ht : i = .reqToggleBacklight
      · subst ht; cases h; simp [hs]
      · exact exec_backlight_of_ne h ho hc ht

/-- Settles O56: three instructions write the flag, and of them none in the GPIO variant. -/
theorem backlightWriters : Obligations.BacklightWriters := by
  refine ⟨fun i s t h hne => ⟨?variant, ?writer⟩, fun s hs => by simp [readBacklight, hs], fun s hs => by
    simp [readBacklight, hs]⟩
  case variant =>
    by_contra hi
    exact hne (exec_backlight_of_gpio h (by simpa using hi))
  case writer =>
    by_contra hw
    simp only [not_or] at hw
    exact hne (exec_backlight_of_ne h hw.1 hw.2.1 hw.2.2)

/-- An instruction that leaves the block inactive leaves the backlight off, or as it was on an inactive block. -/
theorem exec_backlight_of_inactive {i : Instr} {s t : State} (h : exec i s = .next t) (ht : t.active = false) :
    t.backlight = false ∨ (s.active = false ∨ s.isI2c = false) ∧ t.backlight = s.backlight := by
  cases hi2c : s.isI2c with
  | false => exact .inr ⟨.inr rfl, exec_backlight_of_gpio h hi2c⟩
  | true =>
    cases hs : s.active with
    | true =>
      have hne : t.active ≠ s.active := by simp [ht, hs]
      rcases exec_writes_active h hne with ⟨-, hta⟩ | ⟨rfl, -⟩
      · simp [ht] at hta
      · cases h
        exact .inl (by simp [hs, closeActive_backlight, hi2c])
    | false =>
      refine .inr ⟨.inl rfl, ?_⟩
      by_cases ho : i = .reqOpen
      · subst ho
        have hd : (drawAcquire s).1 = false := by simpa [hs, ht] using (execReqOpen_active h).symm
        cases h
        simp [hs, hd, openWith_backlight]
      · by_cases hr : Spec.isRequest i = true
        · obtain ⟨code, value, ha⟩ := exec_request_of_inactive hr ho hs
          cases ha.symm.trans h
          rfl
        · exact exec_backlight_of_ne h ho (fun hc => hr (hc ▸ rfl)) (fun hc => hr (hc ▸ rfl))

theorem isI2c_of_cfg_eq {s t : State PinId} (h : t.cfg = s.cfg) : t.isI2c = s.isI2c := by
  simp only [State.isI2c, h]

theorem exec_backlightSane {i : Instr} {s t : State} (hs : Safety.BacklightSane s) (h : exec i s = .next t) :
    Safety.BacklightSane t := by
  obtain ⟨inactive, gpio⟩ := hs
  refine ⟨fun ht => ?_, fun ht => ?_⟩
  · rcases exec_backlight_of_inactive h ht with hb | ⟨hs | hs, hb⟩
    · exact hb
    · exact hb.trans (inactive hs)
    · exact hb.trans (gpio hs)
  · have hsg : s.isI2c = false := isI2c_of_cfg_eq (exec_cfg h) ▸ ht
    exact (exec_backlight_of_gpio h hsg).trans (gpio hsg)

/-! ### The invariant -/

theorem exec_inv {i : Instr} {s t : State} (hs : Safety.Inv s) (h : exec i s = .next t) : Safety.Inv t where
  cfg := exec_cfg h ▸ hs.cfg
  cache := exec_cacheShaped hs.cache h
  lines := by
    obtain ⟨evs, ht, hl⟩ := exec_drives h
    rw [Safety.LinesFollowTrace, ht, hl, hs.lines, applyEvents_append]
  held := exec_heldWhenActive hs.held h
  backlight := exec_backlightSane hs.backlight h

/-- The invariant does not speak of the port. -/
theorem inv_of_port {s : State} (h : Safety.Inv s) (sv : Option Service) (qs : List (List Request)) (d : Nat) :
    Safety.Inv { s with service := sv, requesters := qs, draws := d } :=
  ⟨h.cfg, h.cache, h.lines, h.held, h.backlight⟩

/-- Settles O53: a step changes what the port holds and runs at most one instruction, which keeps the invariant. -/
theorem stepKeepsInvariant : Obligations.StepKeepsInvariant := by
  intro s t hs h
  rcases step_cases h with ⟨-, -, rfl⟩ | ⟨k, r, i, d, -, -, -, -, -, rfl⟩ | ⟨k, d, -, hx⟩ | ⟨sv, i, -, -, -, hx⟩
  · exact hs
  · exact inv_of_port hs _ _ _
  · exact exec_inv (inv_of_port hs _ _ _) hx
  · exact exec_inv (inv_of_port hs none _ _) hx

/-- A fresh block has released lines, an empty trace and `None` in every entry. -/
theorem fresh_inv {c : Config} (h : c.wf = true) : Safety.Inv (State.fresh c) where
  cfg := h
  cache := ⟨List.length_replicate, fun _ hm => by cases List.eq_of_mem_replicate hm⟩
  lines := rfl
  held := ⟨Iff.rfl, nofun⟩
  backlight := ⟨fun _ => rfl, fun _ => rfl⟩

/-- Settles O52: `State.reset` is one of the fresh states. -/
theorem freshStateMeetsInvariant : Obligations.FreshStateMeetsInvariant :=
  ⟨fresh_inv (by decide), fun _ => fresh_inv⟩

end Sys2Proof.Machine
end

section
/-! PROOFS. The next state of every instruction (30_encoding R62 to R71, 42 R90 to R92, 43 R95 to R103): the runs of
events as the vectors write them, the lines they leave, and each request and pattern field by field. -/

namespace Sys2Proof.Machine

variable {PinId : Type}

/-- Two states with the same fields are the same. -/
theorem State.eq_of_fields {s t : State PinId} (cfg : s.cfg = t.cfg) (active : s.active = t.active)
    (backlight : s.backlight = t.backlight) (cache : s.cache = t.cache) (lines : s.lines = t.lines)
    (service : s.service = t.service) (trace : s.trace = t.trace) (responses : s.responses = t.responses)
    (requesters : s.requesters = t.requesters) (acquireAnswers : s.acquireAnswers = t.acquireAnswers)
    (draws : s.draws = t.draws) : s = t := by
  cases s; cases t
  simp_all

/-! ### The runs of events as the vectors write them -/

theorem lineTable_eq_addressBytes (g : Geometry) : lineTable g = Spec.addressBytes g := by cases g <;> rfl

theorem character_eq_byteEvents (b : Byte) : character b = Spec.byteEvents true b := writeByte_eq_byteEvents b true

theorem characters_eq_flatMap (t : Text) : characters t = t.flatMap (Spec.byteEvents true) :=
  congrArg t.flatMap (funext character_eq_byteEvents)

theorem lineWrite_eq_lineEvents (a : Byte) (t : Text) : lineWrite a t = Spec.lineEvents a t := by
  rw [lineWrite, command_eq_byteEvents, characters_eq_flatMap, Spec.lineEvents]

theorem clearLines_eq_blankEvents (g : Geometry) : clearLines g = Spec.blankEvents g := by
  rw [clearLines, lineTable_eq_addressBytes, Spec.blankEvents]
  simp only [lineWrite_eq_lineEvents]
  rfl

/-- The address of a line in range is its entry of the table. -/
theorem lineAddr_of_getElem? {g : Geometry} {i : Nat} {a : Byte} (h : (Spec.addressBytes g)[i]? = some a) :
    lineAddr g i = a := by
  rw [lineAddr, lineTable_eq_addressBytes, List.getD_eq_getElem?_getD, h, Option.getD_some]

theorem lt_lines_of_getElem? {g : Geometry} {i : Nat} {a : Byte} (h : (Spec.addressBytes g)[i]? = some a) :
    i < g.lines := by
  rw [← lineTable_eq_addressBytes] at h
  obtain ⟨hlt, -⟩ := List.getElem?_eq_some_iff.mp h
  rwa [lineTable_length] at hlt

/-! ### The lines a run of events leaves -/

theorem linesShowing_loNibble (rs : Bool) (v : Byte) :
    linesShowing (levelOf rs) (loNibble v) = Spec.linesAfterByte rs v := by
  simp [linesShowing, Spec.linesAfterByte, loNibble, BitVec.getElem_extractLsb']

theorem lines_command (ls : Lines) (v : Byte) : applyEvents ls (command v) = Spec.linesAfterByte false v :=
  (applyEvents_writeByte ls v false).trans (linesShowing_loNibble false v)

theorem lines_character (ls : Lines) (v : Byte) : applyEvents ls (character v) = Spec.linesAfterByte true v :=
  (applyEvents_writeByte ls v true).trans (linesShowing_loNibble true v)

theorem lines_write4Bits (c : Config PinId) (ls : Lines) (v : Byte) :
    applyEvents ls (write4Bits c v false) = Spec.linesAfterByte false v :=
  (applyEvents_write4Bits c ls v false).trans (linesShowing_loNibble false v)

/-- A line written leaves the lines on its last character. -/
theorem lines_lineWrite (ls : Lines) (a : Byte) {t : Text} (h : t ≠ []) :
    applyEvents ls (lineWrite a t) = Spec.linesAfterByte true (t.getLastD 0) := by
  rw [lineWrite, applyEvents_append, applyEvents_characters _ _ h]
  exact linesShowing_loNibble true _

theorem ne_nil_of_length_eq {t : Text} {n : Nat} (h : t.length = n) (hn : 0 < n) : t ≠ [] :=
  List.ne_nil_of_length_pos (h ▸ hn)

theorem width_pos (g : Geometry) : 0 < g.width := by cases g <;> decide

theorem shownText_length (w : Nat) (text : Text) : (Spec.shownText w text).length = w := by
  rw [← normalize_eq_shownText, normalize_length]

/-- The blanking of the lines leaves them on a space. -/
theorem lines_clearLines (g : Geometry) (ls : Lines) :
    applyEvents ls (clearLines g) = Spec.linesAfterByte true 0x20 := by
  have blank : blankLine g.width ≠ [] := ne_nil_of_length_eq List.length_replicate (width_pos g)
  have last : (blankLine g.width).getLastD 0 = 0x20 := by cases g <;> rfl
  obtain ⟨as, a, h⟩ : ∃ as a, lineTable g = as ++ [a] := by
    cases g
    · exact ⟨[_], _, rfl⟩
    · exact ⟨[_, _, _], _, rfl⟩
    · exact ⟨[_, _, _], _, rfl⟩
  rw [clearLines, h, List.flatMap_append, applyEvents_append, List.flatMap_singleton, lines_lineWrite _ _ blank, last]

/-! ### `Open`, `Close`, `Reset` and `Clear` -/

/-- A draw uses up the first of the answers, or one free value where there is none. -/
theorem drawAcquire_snd (s : State PinId) :
    (drawAcquire s).2 = { s with
      acquireAnswers := s.acquireAnswers.tail,
      draws := if s.acquireAnswers = [] then s.draws + 1 else s.draws } := by
  cases h : s.acquireAnswers <;> simp [drawAcquire, h]

theorem openWith_true (s : State PinId) :
    openWith true s = { s with
      active := true,
      backlight := if s.isI2c then s.cfg.switches.backlightAtOpen else s.backlight,
      cache := Spec.cacheOf s.cfg.geometry none,
      lines := Spec.linesAfterInit,
      trace := s.trace ++ ([.acq, .low] ++ (if s.isI2c then [.bl s.cfg.switches.backlightAtOpen] else []) ++
        Spec.initEvents s.cfg.switches.write4Settle),
      responses := s.responses ++ [Spec.okay] } := by
  have hb := openWith_backlight true s
  have ht := openWith_trace s
  rw [initSeq_eq_initEvents] at ht
  apply State.eq_of_fields
  case backlight => simpa using hb
  case trace => exact ht
  case lines => simp [openWith, applyEvents_initSeq]
  all_goals simp [openWith, Spec.cacheOf, Spec.okay]

theorem exec_reqOpen_of_draw_true {s : State} (ha : s.active = false) (hd : (drawAcquire s).1 = true) :
    exec .reqOpen s = .next (openWith true (drawAcquire s).2) := by
  simp only [exec, execReqOpen, ha, hd, Bool.false_eq_true, if_false]

theorem exec_reqOpen_of_active {s : State} (ha : s.active = true) : exec .reqOpen s = .next (respondOk s) := by
  simp only [exec, execReqOpen, ha, if_true]

/-- Settles O16: `Open` draws and then opens with the answer; an active block is left alone. -/
theorem openInitializesInactiveBlock : Obligations.OpenInitializesInactiveBlock := by
  refine ⟨fun s ha hd => ?opens, fun s ok rest h => by rw [drawAcquire_of_supplied h],
    fun s => exec_reqOpen_of_active⟩
  case opens => rw [exec_reqOpen_of_draw_true ha hd, openWith_true, drawAcquire_snd]; rfl

/-- Settles O17, by the two values of the draw. -/
theorem openTakesEitherAnswer : Obligations.OpenTakesEitherAnswer := by
  intro s ha hn
  have drawn : (drawAcquire s).2 = { s with draws := s.draws + 1 } := by rw [drawAcquire, hn]
  cases hd : (drawAcquire s).1 with
  | true =>
    refine ⟨_, exec_reqOpen_of_draw_true ha hd, ?_⟩
    rw [openWith_true, drawn]
    exact ⟨rfl, .inl ⟨rfl, rfl, rfl, rfl⟩⟩
  | false =>
    refine ⟨_, execReqOpen_of_draw_false ha hd, ?_⟩
    rw [drawn]
    exact ⟨rfl, .inr rfl⟩

theorem resetActive_eq (s : State PinId) :
    resetActive s = { s with
      cache := if s.cfg.switches.resetInvalidatesCache then Spec.cacheOf s.cfg.geometry none else s.cache,
      lines := Spec.linesAfterInit,
      trace := s.trace ++ Spec.initEvents s.cfg.switches.write4Settle,
      responses := s.responses ++ [Spec.okay] } := by
  rw [resetActive, emit, applyEvents_initSeq, initSeq_eq_initEvents]
  split <;> rfl

/-- Settles O20: the sequence is re-run, and the switch decides on the cache. -/
theorem resetReinitializes : Obligations.ResetReinitializes := by
  intro s ha
  rw [← resetActive_eq]
  simp only [exec, execReqReset, ha, if_true]

/-- The blanking of the lines and the cache, shared by `Clear` and `Close`. -/
theorem fillCache_emit_clearLines (s : State PinId) :
    fillCache (some (blankLine s.cfg.geometry.width)) (emit (clearLines s.cfg.geometry) s) = { s with
      cache := Spec.cacheOf s.cfg.geometry (some (List.replicate s.cfg.geometry.width 0x20)),
      lines := Spec.linesAfterByte true 0x20,
      trace := s.trace ++ Spec.blankEvents s.cfg.geometry } := by
  rw [emit, lines_clearLines, clearLines_eq_blankEvents]
  rfl

/-- Settles O22: `Clear` of an active block is that blanking, answered. -/
theorem clearBlanksEveryLine : Obligations.ClearBlanksEveryLine := by
  intro s ha
  simp only [exec, execReqClear, ha, if_true, fillCache_emit_clearLines]
  rfl

/-- The commands of `Close` as the vectors write them. -/
theorem closeCommands_eq (c : Config PinId) :
    closeCommands c = Spec.byteEvents false 0x01 ++ (if c.switches.closeClearWait then [.wait .clear] else []) ++
      Spec.byteEvents false c.switches.displayOffCmd := by
  rw [closeCommands, clearCommand, command_eq_byteEvents, command_eq_byteEvents]
  split
  · rfl
  · rw [List.append_nil]

theorem closeActive_eq (s : State PinId) :
    closeActive s = { s with
      active := false,
      backlight := if s.isI2c then false else s.backlight,
      cache := Spec.cacheOf s.cfg.geometry (some (List.replicate s.cfg.geometry.width 0x20)),
      lines := allLines .z,
      trace := s.trace ++ (Spec.blankEvents s.cfg.geometry ++ Spec.byteEvents false 0x01 ++
        (if s.cfg.switches.closeClearWait then [.wait .clear] else []) ++
        Spec.byteEvents false s.cfg.switches.displayOffCmd ++ (if s.isI2c then [.bl false] else []) ++ [.low, .rel]),
      responses := s.responses ++ [Spec.okay] } := by
  have ht := closeActive_trace s
  rw [clearLines_eq_blankEvents, closeCommands_eq] at ht
  apply State.eq_of_fields
  case backlight => exact closeActive_backlight s
  case cache => exact closeActive_cache s
  case trace => simpa only [List.append_assoc] using ht
  all_goals simp [closeActive, Spec.okay, applyEvent]

theorem exec_reqClose_of_active {s : State} (ha : s.active = true) : exec .reqClose s = .next (closeActive s) := by
  simp only [exec, execReqClose, ha, if_true]

/-- Settles O23, by the state `Close` of an active block leaves. -/
theorem closeShutsDown : Obligations.CloseShutsDown :=
  fun s ha => (exec_reqClose_of_active ha).trans (congrArg Host.Outcome.next (closeActive_eq s))

/-! ### The no-op policy -/

theorem responsesOf_of_isGated {i : Instr} (h : Spec.isGated i = true) (s : State PinId) :
    responsesOf i s = [Spec.okay] := by
  cases i with
  | reqSetChar position definition =>
    have hl : definition.length = glyphRows := of_decide_eq_true h
    simp [responsesOf, hl, Spec.okay]
  | reqClose | reqReset | reqClear | reqDisplay _ _ | reqToggleBacklight => rfl
  | _ => cases h

theorem isRequest_of_isGated {i : Instr} (h : Spec.isGated i = true) : Spec.isRequest i = true := by
  cases i with
  | reqClose | reqReset | reqClear | reqDisplay _ _ | reqSetChar _ _ | reqToggleBacklight => rfl
  | _ => cases h

/-- Settles O19: such a request does no more than answer, and what a gated one answers is OK. -/
theorem inactiveRequestsAreNoOps : Obligations.InactiveRequestsAreNoOps := by
  intro i s hi hs
  have ho : i ≠ .reqOpen := by
    rintro rfl
    cases hi
  obtain ⟨code, value, h⟩ := exec_request_of_inactive (isRequest_of_isGated hi) ho hs
  have hr := List.append_cancel_left (exec_responses h)
  rw [responsesOf_of_isGated hi] at hr
  rw [h, answer, hr]

/-! ### `Display` -/

theorem displayLine_of_hit {i : Nat} {t : Text} {s : State PinId} (h : s.cache.getD i none = some t) :
    displayLine i t s = respondOk s :=
  if_pos h

theorem displayLine_of_miss {i : Nat} {t : Text} {s : State PinId} (h : s.cache.getD i none ≠ some t) :
    displayLine i t s = respondOk (setCacheEntry i t (emit (lineWrite (lineAddr s.cfg.geometry i) t) s)) :=
  if_neg h

/-- `Display` of an active block on a line in range. -/
theorem exec_reqDisplay {s : State} {line : Int} (text : Text) (ha : s.active = true)
    (hr : inRange s.cfg.geometry line = true) :
    exec (.reqDisplay line text) s = .next (displayLine line.toNat (Spec.shownText s.cfg.geometry.width text) s) := by
  simp only [exec, execReqDisplay, ha, hr, Bool.and_self, if_true, normalize_eq_shownText]

theorem inRange_natCast {g : Geometry} {i : Nat} (h : i < g.lines) : inRange g (i : Int) = true :=
  inRange_eq_true_iff.mpr ⟨Int.natCast_nonneg i, Int.ofNat_lt.mpr h⟩

/-- The same with the line a natural number. -/
theorem exec_reqDisplay_natCast {s : State} {i : Nat} (text : Text) (ha : s.active = true)
    (hi : i < s.cfg.geometry.lines) :
    exec (.reqDisplay (i : Int) text) s = .next (displayLine i (Spec.shownText s.cfg.geometry.width text) s) :=
  exec_reqDisplay text ha (inRange_natCast hi)

/-- Elsewhere it only answers. -/
theorem exec_reqDisplay_of_gated {s : State} {line : Int} (text : Text)
    (h : (s.active && inRange s.cfg.geometry line) = false) : exec (.reqDisplay line text) s = .next (respondOk s) := by
  simp only [exec, execReqDisplay, h, Bool.false_eq_true, if_false]

/-- Settles O24: a miss is answered with the line written and the entry set, the address being the table's. -/
theorem displayMissWritesLineThenCache : Obligations.DisplayMissWritesLineThenCache := by
  intro s i a text ha hi hmiss
  have shown : Spec.shownText s.cfg.geometry.width text ≠ [] :=
    ne_nil_of_length_eq (shownText_length _ _) (width_pos _)
  rw [exec_reqDisplay_natCast text ha (lt_lines_of_getElem? hi), displayLine_of_miss hmiss, lineAddr_of_getElem? hi,
    emit, lines_lineWrite _ _ shown, lineWrite_eq_lineEvents]
  rfl

theorem characters_length (t : Text) : (characters t).length = 20 * t.length := by
  induction t with
  | nil => rfl
  | cons b t ih =>
    have hb : (character b).length = 20 := rfl
    rw [characters_cons, List.length_append, hb, ih, List.length_cons]
    omega

theorem lineWrite_length (a : Byte) (t : Text) : (lineWrite a t).length = 20 * (1 + t.length) := by
  have ha : (command a).length = 20 := rfl
  rw [lineWrite, List.length_append, ha, characters_length]
  omega

/-- A never-written entry is a miss. -/
theorem displayLine_trace_length {i : Nat} {t : Text} {s : State PinId} (h : s.cache.getD i none = none) :
    (displayLine i t s).trace.length = s.trace.length + 20 * (1 + t.length) := by
  rw [displayLine_of_miss (by rw [h]; exact nofun), respondOk_trace, setCacheEntry_trace, emit_trace,
    List.length_append, lineWrite_length]

theorem exec_reqDisplay_of_none {s : State} {i : Nat} (text : Text) (ha : s.active = true)
    (hi : i < s.cfg.geometry.lines) (h : s.cache.getD i none = none) :
    ∃ t, exec (.reqDisplay (i : Int) text) s = .next t ∧
      t.trace.length = s.trace.length + 20 * (1 + s.cfg.geometry.width) :=
  ⟨_, exec_reqDisplay_natCast text ha hi, by rw [displayLine_trace_length h, shownText_length]⟩

/-- A cache hit only answers. -/
theorem exec_reqDisplay_of_hit {s : State} {i : Nat} {text : Text} (ha : s.active = true)
    (hi : i < s.cfg.geometry.lines)
    (h : s.cache.getD i none = some (Spec.shownText s.cfg.geometry.width text)) :
    exec (.reqDisplay (i : Int) text) s = .next (respondOk s) := by
  rw [exec_reqDisplay_natCast text ha hi, displayLine_of_hit h]

/-- Settles O25: a hit only answers, and `None` is no text. -/
theorem displayHitIsSilent : Obligations.DisplayHitIsSilent :=
  ⟨fun _ _ _ => exec_reqDisplay_of_hit, fun _ _ text => exec_reqDisplay_of_none text⟩

/-- After a `Display` of a line in the cache its entry is the text. -/
theorem displayLine_cacheEntry {i : Nat} {t : Text} {s : State PinId} (hi : i < s.cache.length) :
    (displayLine i t s).cache.getD i none = some t := by
  by_cases h : s.cache.getD i none = some t
  · rw [displayLine_of_hit h]
    exact h
  · rw [displayLine_of_miss h, respondOk_cache, setCacheEntry_cache, List.getD_eq_getElem?_getD, emit_cache,
      List.getElem?_set_self hi, Option.getD_some]

/-- Settles O27: the first leaves the text in the entry, or does nothing, and then neither does the second. -/
theorem secondDisplayIsSilent : Obligations.SecondDisplayIsSilent := by
  intro s t line text text' hlength htext h
  cases hg : s.active && inRange s.cfg.geometry line with
  | false =>
    rw [exec_reqDisplay_of_gated text hg] at h
    cases h
    exact exec_reqDisplay_of_gated text' hg
  | true =>
    obtain ⟨ha, hr⟩ := Bool.and_eq_true_iff.mp hg
    obtain ⟨h0, hl⟩ := inRange_eq_true_iff.mp hr
    rw [exec_reqDisplay text ha hr, Host.Outcome.next.injEq] at h
    have hta : t.active = true := by rw [← h, displayLine_active, ha]
    have htc : t.cfg = s.cfg := by rw [← h, displayLine_cfg]
    have hentry : t.cache.getD line.toNat none = some (Spec.shownText s.cfg.geometry.width text) := by
      rw [← h]
      exact displayLine_cacheEntry (by omega)
    have second := exec_reqDisplay text' hta (htc ▸ hr)
    rwa [htc, ← htext, displayLine_of_hit hentry] at second

theorem getD_cacheOf {g : Geometry} {i : Nat} (h : i < g.lines) (entry : Option Text) :
    (Spec.cacheOf g entry).getD i none = entry := by
  rw [Spec.cacheOf, List.getD_replicate _ h]

/-- Settles O28: the cache is full of blank lines after `Clear`, and of `None` after the reopening. -/
theorem clearFillsAndReopenEmptiesCache : Obligations.ClearFillsAndReopenEmptiesCache := by
  refine ⟨fun s t i ha hi h => ?clear, fun s t u rest i text ha hans hi hclose hopen => ?reopen⟩
  case clear =>
    cases (clearBlanksEveryLine s ha).symm.trans h
    refine exec_reqDisplay_of_hit ha hi ?_
    rw [shownText_nil]
    exact getD_cacheOf hi _
  case reopen =>
    cases (closeShutsDown s ha).symm.trans hclose
    have hd := congrArg Prod.fst (drawAcquire_of_supplied (s := closeActive s) (by simpa [closeActive] using hans))
    rw [closeActive_eq] at hd
    cases (openInitializesInactiveBlock.1 _ rfl hd).symm.trans hopen
    exact ⟨rfl, rfl, exec_reqDisplay_of_none text rfl hi (getD_cacheOf hi none)⟩

end Sys2Proof.Machine
end

section
/-! PROOFS. The other requests and the output patterns (30_encoding R62 to R71, 43 R101 to R103, 60_exceptions R106,
R111). -/

namespace Sys2Proof.Machine

variable {PinId : Type}

/-! ### `SetChar` -/

theorem glyphWrite_eq_lineWrite (position : Byte) (definition : Text) :
    glyphWrite position definition = lineWrite (glyphCommand position) definition := rfl

theorem exec_reqSetChar_of_active {s : State} (position : Byte) {definition : Text} (ha : s.active = true)
    (hl : definition.length = 8) :
    exec (.reqSetChar position definition) s = .next (respondOk (emit (glyphWrite position definition) s)) := by
  simp only [exec, execReqSetChar, glyphRows, hl, ne_eq, not_true_eq_false, if_false, ha, if_true]

/-- Settles O29: a glyph is written as a line is, from the command byte of its position. -/
theorem setCharWritesGlyph : Obligations.SetCharWritesGlyph := by
  intro s position definition ha hl
  have hne : definition ≠ [] := ne_nil_of_length_eq hl (by decide)
  rw [exec_reqSetChar_of_active position ha hl, glyphWrite_eq_lineWrite, glyphCommand_eq_ofNat, emit,
    lines_lineWrite _ _ hne, lineWrite_eq_lineEvents]
  rfl

theorem exec_reqSetChar_of_wrong_length {s : State} {position : Byte} {definition : Text} (hl : definition.length ≠ 8) :
    exec (.reqSetChar position definition) s = .next (raise .invalidGlyphDefinition s) := by
  simp only [exec, execReqSetChar, glyphRows, ne_eq, hl, not_false_eq_true, if_true]

/-! ### The errors -/

/-- What answers an error: an `Open` of an inactive block whose draw fails, or a `SetChar` with a wrong length. -/
theorem error_cases {i : Instr} {s : State PinId} {r : Response} (h : r ∈ responsesOf i s) (hr : r.code ≠ .ok) :
    (i = .reqOpen ∧ s.active = false ∧ (drawAcquire s).1 = false ∧ r.code = .transportUnavailable) ∨
      ∃ position definition, i = .reqSetChar position definition ∧ definition.length ≠ 8 ∧
        r = { code := .invalidGlyphDefinition, value := none } := by
  cases i with
  | reqOpen =>
    cases List.mem_singleton.mp h
    have failed : (s.active || (drawAcquire s).1) = false := by simpa using hr
    obtain ⟨ha, hd⟩ := Bool.or_eq_false_iff.mp failed
    exact .inl ⟨rfl, ha, hd, if_neg (by simp [ha, hd])⟩
  | reqSetChar position definition =>
    cases List.mem_singleton.mp h
    have hl : definition.length ≠ glyphRows := by simpa using hr
    exact .inr ⟨position, definition, rfl, hl, by rw [if_neg hl]⟩
  | reqClose | reqReset | reqClear | reqDisplay _ _ | reqToggleBacklight | reqActive =>
    cases List.mem_singleton.mp h
    exact absurd rfl hr
  | _ => cases h

/-- Settles O30: of the errors the one of `SetChar`, which does no more than answer it. -/
theorem invalidGlyphOnlyFromSetChar : Obligations.InvalidGlyphOnlyFromSetChar := by
  refine ⟨fun i s t h => ⟨fun hr => ?source, ?effect⟩, fun s position definition hl =>
    exec_reqSetChar_of_wrong_length hl⟩
  case source =>
    have answered := List.append_cancel_left ((exec_responses h).symm.trans hr)
    rcases error_cases (answered ▸ List.mem_singleton_self _) (by decide) with ⟨-, -, -, hcode⟩ | ⟨p, d, hi, hl, -⟩
    · cases hcode
    · exact ⟨p, d, hi, hl⟩
  case effect =>
    rintro ⟨position, definition, rfl, hl⟩
    cases (exec_reqSetChar_of_wrong_length hl).symm.trans h
    rfl

/-- Settles O34: the two that answer an error do no more than answer it, after the draw of `Open`. -/
theorem errorResponsesArePrecise : Obligations.ErrorResponsesArePrecise := by
  intro i s t r h ht hr
  have answered := List.append_cancel_left ((exec_responses h).symm.trans ht)
  rcases error_cases (answered ▸ List.mem_singleton_self r) hr with ⟨rfl, ha, hd, -⟩ | ⟨p, d, rfl, hl, -⟩
  · cases (execReqOpen_of_draw_false ha hd).symm.trans h
    simp
  · cases (exec_reqSetChar_of_wrong_length hl).symm.trans h
    simp

/-! ### `ToggleBacklight` and `Active` -/

/-- A toggle of an active I2C block. -/
theorem exec_reqToggleBacklight_of_i2c {s : State} (hi : s.isI2c = true) (ha : s.active = true) :
    exec .reqToggleBacklight s = .next { s with
      backlight := !s.backlight,
      trace := s.trace ++ [.bl (!s.backlight)],
      responses := s.responses ++ [Spec.okay] } := by
  have hb : readBacklight s = s.backlight := by rw [readBacklight, hi, Bool.true_and]
  simp only [exec, execReqToggleBacklight, hi, ha, Bool.and_self, if_true, hb, lightBacklight]
  refine congrArg Host.Outcome.next (State.eq_of_fields rfl ha ?_ rfl rfl rfl rfl rfl rfl rfl rfl)
  rw [respondOk_backlight, emit_backlight, setBacklight_backlight, if_pos hi]

/-- Any other toggle only answers. -/
theorem exec_reqToggleBacklight_of_not {s : State} (h : (s.isI2c && s.active) = false) :
    exec .reqToggleBacklight s = .next (respondOk s) := by
  simp only [exec, execReqToggleBacklight, h, Bool.false_eq_true, if_false]

/-- A toggle leaves the lines and the cache alone, and inverts the flag or leaves it, by what it also leaves alone. -/
theorem exec_reqToggleBacklight_effect {s t : State} (h : exec .reqToggleBacklight s = .next t) :
    (t.isI2c && t.active) = (s.isI2c && s.active) ∧ t.lines = s.lines ∧ t.cache = s.cache ∧
      t.backlight = ((s.isI2c && s.active) != s.backlight) := by
  cases hg : s.isI2c && s.active with
  | true =>
    obtain ⟨hi, ha⟩ := Bool.and_eq_true_iff.mp hg
    cases (exec_reqToggleBacklight_of_i2c hi ha).symm.trans h
    exact ⟨hg, rfl, rfl, (Bool.true_bne _).symm⟩
  | false =>
    cases (exec_reqToggleBacklight_of_not hg).symm.trans h
    exact ⟨hg, rfl, rfl, (Bool.false_bne _).symm⟩

/-- Settles O32: two inversions, or none, restore the flag. -/
theorem toggleBacklightInverts : Obligations.ToggleBacklightInverts := by
  refine ⟨fun s => exec_reqToggleBacklight_of_i2c, fun s hi => ?gpio, fun s t u h k => ?twice⟩
  case gpio => exact exec_reqToggleBacklight_of_not (by rw [hi, Bool.false_and])
  case twice =>
    obtain ⟨hg, hl, hc, hb⟩ := exec_reqToggleBacklight_effect h
    obtain ⟨-, kl, kc, kb⟩ := exec_reqToggleBacklight_effect k
    refine ⟨?_, kl.trans hl, kc.trans hc⟩
    rw [kb, hg, hb]
    cases s.isI2c && s.active <;> cases s.backlight <;> rfl

/-- Settles O33, by the definition of `Active`. -/
theorem activeAnswersFlag : Obligations.ActiveAnswersFlag := fun _ => rfl

/-! ### The output patterns -/

/-- Settles O35: the single-nibble call, as the vectors write it, and the lines it leaves. -/
theorem initNibblesAreSent : Obligations.InitNibblesAreSent := by
  refine ⟨fun s => ?three, fun s => ?two⟩
  case three => rw [← lines_write4Bits s.cfg s.lines 0x03, ← write4Bits_three]; rfl
  case two => rw [← lines_write4Bits s.cfg s.lines 0x02, ← write4Bits_two]; rfl

/-- A command byte sent, as the vectors write it. -/
theorem emit_command (v : Byte) (s : State PinId) :
    emit (command v) s =
      { s with lines := Spec.linesAfterByte false v, trace := s.trace ++ Spec.byteEvents false v } := by
  rw [emit, lines_command, command_eq_byteEvents]

theorem emit_clearCommand (s : State PinId) :
    emit clearCommand s =
      { s with
        lines := Spec.linesAfterByte false 0x01,
        trace := s.trace ++ (Spec.byteEvents false 0x01 ++ [.wait .clear]) } := by
  rw [emit, clearCommand, applyEvents_append, lines_command, command_eq_byteEvents]
  rfl

theorem emit_character (v : Byte) (s : State PinId) :
    emit (character v) s =
      { s with lines := Spec.linesAfterByte true v, trace := s.trace ++ Spec.byteEvents true v } := by
  rw [emit, lines_character, character_eq_byteEvents]

/-- Settles O36: each is its byte sent as a command. -/
theorem fixedCommandsAreSent : Obligations.FixedCommandsAreSent :=
  fun s => ⟨congrArg Host.Outcome.next (emit_command _ s), congrArg Host.Outcome.next (emit_command _ s),
    congrArg Host.Outcome.next (emit_command _ s), congrArg Host.Outcome.next (emit_clearCommand s),
    congrArg Host.Outcome.next (emit_command _ s)⟩

theorem ddramCommand_eq : ∀ a : BitVec 7, 0b1#1 ++ a = BitVec.ofNat 8 (0x80 + a.toNat) := by decide

theorem cgramCommand_eq : ∀ a : BitVec 6, 0b01#2 ++ a = BitVec.ofNat 8 (0x40 + a.toNat) := by decide

/-- Settles O37: each is its byte sent, the fixed bits added to the operand. -/
theorem addressAndDataAreSent : Obligations.AddressAndDataAreSent := by
  refine fun s => ⟨fun a => ?ddram, fun a => ?cgram, fun d => congrArg Host.Outcome.next (emit_character d s)⟩
  case ddram => rw [← ddramCommand_eq, ← emit_command]; rfl
  case cgram => rw [← cgramCommand_eq, ← emit_command]; rfl

end Sys2Proof.Machine
end

section
/-! PROOFS. The words a request sends and the cells they reach (00_scope R2, 20_memory R35, R45, 30_encoding R72,
40 R81): what is read off the events that `Emits` lists. -/

namespace Sys2Proof.Machine

variable {PinId : Type}

/-! ### Runs that send nothing -/

/-- The light of a request, where the variant has one. -/
theorem Sends.light (p : Prop) [Decidable p] (v : Bool) : Sends (if p then [.bl v] else []) [] := by
  split
  · exact .other _ (.inr (.inr (.inr ⟨v, rfl⟩)))
  · exact .nil

theorem Sends.acquired : Sends [.acq, .low] [] :=
  (Sends.other .acq (.inr (.inr (.inl rfl)))).append (.other .low (.inl rfl))

theorem Sends.released : Sends [.low, .rel] [] :=
  (Sends.other .low (.inl rfl)).append (.other .rel (.inr (.inl rfl)))

/-! ### Single-nibble transfers -/

/-- A run of events that sends no single nibble. -/
def SendsNoNibble (evs : List Event) : Prop := ∃ ws, Sends evs ws ∧ ∀ w ∈ ws, Spec.isNibbleWord w = false

namespace SendsNoNibble

theorem nibbleTransfers {evs : List Event} (h : SendsNoNibble evs) (ls : Lines) : Spec.nibbleTransfers ls evs = 0 := by
  obtain ⟨ws, hs, hw⟩ := h
  rw [Spec.nibbleTransfers, hs.outputWords, List.countP_eq_zero]
  exact fun w hm => by rw [hw w hm]; exact Bool.false_ne_true

theorem append {xs ys : List Event} (h : SendsNoNibble xs) (k : SendsNoNibble ys) : SendsNoNibble (xs ++ ys) := by
  obtain ⟨us, hs, hu⟩ := h
  obtain ⟨vs, ks, kv⟩ := k
  exact ⟨us ++ vs, hs.append ks, fun w hm => (List.mem_append.mp hm).elim (hu w) (kv w)⟩

theorem silent {evs : List Event} (h : Sends evs []) : SendsNoNibble evs := ⟨[], h, nofun⟩

theorem writeByte (v : Byte) (rs : Bool) : SendsNoNibble (writeByte v rs) :=
  ⟨_, .writeByte v rs, fun w hm => by cases List.mem_singleton.mp hm; rfl⟩

theorem lineWrite (a : Byte) (t : Text) : SendsNoNibble (lineWrite a t) :=
  (writeByte a false).append (flatMap_of_append (silent .nil) append fun b _ => writeByte b true)

theorem clearLines (g : Geometry) : SendsNoNibble (clearLines g) :=
  flatMap_of_append (silent .nil) append fun a _ => lineWrite a _

theorem closeCommands (c : Config PinId) : SendsNoNibble (closeCommands c) :=
  ⟨_, .closeCommands c, List.forall_mem_cons.mpr ⟨rfl, List.forall_mem_cons.mpr ⟨rfl, nofun⟩⟩⟩

end SendsNoNibble

/-- A request that does not run the initialization sequence sends no single nibble; one that does, nothing but the
acquisition, the low lines and the light before it. -/
theorem Emits.nibbles {i : Instr} {s : State} {evs : List Event} (h : Emits s i evs) :
    (Spec.runsInit i s = false ∧ SendsNoNibble evs) ∨
      ∃ before, Spec.runsInit i s = true ∧ evs = before ++ initSeq s.cfg ∧ Sends before [] := by
  have idle {j : Instr} (ho : j ≠ .reqOpen) (hr : j ≠ .reqReset) : Spec.runsInit j s = false := by
    simp [Spec.runsInit, ho, hr]
  cases h with
  | silent _ ho hr =>
    refine .inl ⟨?_, .silent .nil⟩
    by_cases hio : i = .reqOpen
    · rcases ho hio with ha | hd
      · simp [Spec.runsInit, hio, ha]
      · simp [Spec.runsInit, hio, hd]
    · by_cases hir : i = .reqReset
      · simp [Spec.runsInit, hir, hr hir]
      · exact idle hio hir
  | opens ha hd =>
    exact .inr ⟨_, by simp [Spec.runsInit, ha, hd], rfl, Sends.acquired.append (.light _ _)⟩
  | resets ha => exact .inr ⟨[], by simp [Spec.runsInit, ha], rfl, .nil⟩
  | closes =>
    exact .inl ⟨idle nofun nofun, (((SendsNoNibble.clearLines _).append (.closeCommands _)).append
      (.silent (.light _ _))).append (.silent .released)⟩
  | clears => exact .inl ⟨idle nofun nofun, .clearLines _⟩
  | displays => exact .inl ⟨idle nofun nofun, .lineWrite _ _⟩
  | draws => exact .inl ⟨idle nofun nofun, .lineWrite _ _⟩
  | lights => exact .inl ⟨idle nofun nofun, .silent (.other _ (.inr (.inr (.inr ⟨_, rfl⟩))))⟩

/-- Settles O40: of the words of the initialization sequence four are single nibbles, and of all others none. -/
theorem initSequenceOncePerOpenOrReset : Obligations.InitSequenceOncePerOpenOrReset := by
  intro i s t evs hi h ht
  obtain ⟨evs', ht', emits⟩ := exec_request_emits hi h
  obtain rfl := List.append_cancel_left (ht.symm.trans ht')
  rcases emits.nibbles with ⟨hrun, hno⟩ | ⟨before, hrun, rfl, hbefore⟩
  · exact ⟨by rw [hno.nibbleTransfers, hrun]; rfl, fun hr => by cases hrun.symm.trans hr⟩
  · refine ⟨?_, fun _ => ⟨before, by rw [initSeq_eq_initEvents], ?_⟩⟩
    · rw [Spec.nibbleTransfers, (hbefore.append (Sends.initSeq s.cfg)).outputWords, hrun]
      rfl
    · exact (SendsNoNibble.silent hbefore).nibbleTransfers _

/-! ### Every word is a row of the table -/

/-- The word of an output instruction that a block of this geometry sends. -/
def Listed (g : Geometry) (w : Option PortItem) : Prop := ∃ o, w = some (encode o) ∧ Spec.sends g o = true

theorem listed_data (g : Geometry) (b : Byte) : Listed g (some (.byte8 (1#1 ++ b))) := ⟨.outWriteData b, rfl, rfl⟩

/-- An address byte of the table is a set-DDRAM-address. -/
theorem addressByte_eq {g : Geometry} {a : Byte} (h : a ∈ Spec.addressBytes g) :
    0b1#1 ++ a.extractLsb' 0 7 = a ∧ (0#1 ++ a : BitVec 9) = 0b01#2 ++ a.extractLsb' 0 7 ∧
      (a.extractLsb' 0 7).toNat = a.toNat - 0x80 := by
  revert a
  cases g <;> decide

theorem listed_address {g : Geometry} {a : Byte} (h : a ∈ Spec.addressBytes g) :
    Listed g (some (.byte8 (0#1 ++ a))) := by
  obtain ⟨hbyte, hword, -⟩ := addressByte_eq h
  exact ⟨.outSetDdramAddr (a.extractLsb' 0 7), by rw [hword]; rfl, decide_eq_true (by rw [hbyte]; exact h)⟩

theorem listed_initSeq (g : Geometry) : ∀ w ∈ [some (PortItem.nib4 0x03), some (.nib4 0x03), some (.nib4 0x03),
    some (.nib4 0x02), some (.byte8 0x028), some (.byte8 0x00C), some (.byte8 0x006), some (.byte8 0x001)],
    Listed g w := by
  simp only [List.forall_mem_cons]
  exact ⟨⟨.outInitNibble3, rfl, rfl⟩, ⟨.outInitNibble3, rfl, rfl⟩, ⟨.outInitNibble3, rfl, rfl⟩,
    ⟨.outInitNibble2, rfl, rfl⟩, ⟨.outFunctionSet, rfl, rfl⟩, ⟨.outDisplayOn, rfl, rfl⟩, ⟨.outEntryMode, rfl, rfl⟩,
    ⟨.outClearDisplay, rfl, rfl⟩, nofun⟩

theorem listed_dataWords (g : Geometry) (t : Text) :
    ∀ w ∈ t.map fun b => some (PortItem.byte8 (1#1 ++ b)), Listed g w := by
  intro w hw
  obtain ⟨b, -, rfl⟩ := List.mem_map.mp hw
  exact listed_data g b

theorem listed_lineWords {g : Geometry} {a : Byte} (h : a ∈ Spec.addressBytes g) (t : Text) :
    ∀ w ∈ some (PortItem.byte8 (0#1 ++ a)) :: t.map fun b => some (.byte8 (1#1 ++ b)), Listed g w :=
  List.forall_mem_cons.mpr ⟨listed_address h, listed_dataWords g t⟩

theorem lineAddr_mem {g : Geometry} {i : Nat} (h : i < g.lines) : lineAddr g i ∈ Spec.addressBytes g := by
  rw [← lineTable_length] at h
  rw [lineAddr, List.getD_eq_getElem _ _ h, ← lineTable_eq_addressBytes]
  exact List.getElem_mem h

theorem lineAddr_mem_of_inRange {g : Geometry} {line : Int} (h : inRange g line = true) :
    lineAddr g line.toNat ∈ Spec.addressBytes g := by
  obtain ⟨h0, hl⟩ := inRange_eq_true_iff.mp h
  exact lineAddr_mem (by omega)

theorem listed_blankWords (g : Geometry) :
    ∀ w ∈ (lineTable g).flatMap fun a =>
      some (PortItem.byte8 (0#1 ++ a)) :: (blankLine g.width).map fun b => some (.byte8 (1#1 ++ b)), Listed g w := by
  intro w hw
  obtain ⟨a, ha, hw⟩ := List.mem_flatMap.mp hw
  exact listed_lineWords (lineTable_eq_addressBytes g ▸ ha) _ w hw

/-- The command byte of a glyph is a set-CGRAM-address at a multiple of 8 where its position is below 8 mod 32. -/
theorem listed_glyphCommand (g : Geometry) {position : Byte} (h : position.toNat % 32 < 8) :
    Listed g (some (.byte8 (0#1 ++ glyphCommand position))) := by
  refine ⟨.outSetCgramAddr (BitVec.ofNat 6 (position.toNat % 32 * 8)), by rw [glyphCommand_cgram h]; rfl, ?_⟩
  refine decide_eq_true ?_
  rw [BitVec.toNat_ofNat]
  omega

/-- A word of a request: listed, or one of the two bytes that need not be. -/
def ListedOrNamed (i : Instr) (s : State) (w : Option PortItem) : Prop :=
  Listed s.cfg.geometry w ∨
    (i = .reqClose ∧ s.cfg.switches.displayOffCmd ≠ 0x08 ∧
      w = some (.byte8 (0#1 ++ s.cfg.switches.displayOffCmd))) ∨
    ∃ position definition, i = .reqSetChar position definition ∧ 8 ≤ position.toNat % 32 ∧
      w = some (.byte8 (0#1 ++ BitVec.ofNat 8 (0x40 + position.toNat * 8)))

theorem listedOrNamed_displayOff (s : State) :
    ListedOrNamed .reqClose s (some (.byte8 (0#1 ++ s.cfg.switches.displayOffCmd))) := by
  by_cases h : s.cfg.switches.displayOffCmd = 0x08
  · exact .inl ⟨.outDisplayOff, by rw [h]; rfl, rfl⟩
  · exact .inr (.inl ⟨rfl, h, rfl⟩)

theorem listedOrNamed_glyphCommand (position : Byte) (definition : Text) (s : State) :
    ListedOrNamed (.reqSetChar position definition) s (some (.byte8 (0#1 ++ glyphCommand position))) := by
  by_cases h : position.toNat % 32 < 8
  · exact .inl (listed_glyphCommand _ h)
  · exact .inr (.inr ⟨position, definition, rfl, Nat.le_of_not_lt h, by rw [glyphCommand_eq_ofNat]⟩)

/-- Every run a request adds sends such words. -/
theorem Emits.sends {i : Instr} {s : State} {evs : List Event} (h : Emits s i evs) :
    ∃ ws, Sends evs ws ∧ ∀ w ∈ ws, ListedOrNamed i s w := by
  cases h with
  | silent => exact ⟨[], .nil, nofun⟩
  | opens =>
    exact ⟨_, (Sends.acquired.append (.light _ _)).append (.initSeq _), fun w hw => .inl (listed_initSeq _ w hw)⟩
  | resets => exact ⟨_, .initSeq _, fun w hw => .inl (listed_initSeq _ w hw)⟩
  | closes =>
    refine ⟨_, ((Sends.clearLines _).append (.closeCommands _)).append (.light _ _) |>.append .released, ?_⟩
    simp only [List.append_nil, List.forall_mem_append, List.forall_mem_cons]
    exact ⟨fun w hw => .inl (listed_blankWords _ w hw), .inl ⟨.outClearDisplay, rfl, rfl⟩, listedOrNamed_displayOff s,
      nofun⟩
  | clears => exact ⟨_, .clearLines _, fun w hw => .inl (listed_blankWords _ w hw)⟩
  | displays line text _ hr =>
    exact ⟨_, .lineWrite _ _, fun w hw => .inl (listed_lineWords (lineAddr_mem_of_inRange hr) _ w hw)⟩
  | draws position definition =>
    exact ⟨_, .lineWrite _ _, List.forall_mem_cons.mpr
      ⟨listedOrNamed_glyphCommand _ _ s, fun w hw => .inl (listed_dataWords _ _ w hw)⟩⟩
  | lights => exact ⟨[], .other _ (.inr (.inr (.inr ⟨_, rfl⟩))), nofun⟩

/-- Settles O41, by the words of each run a request can add. -/
theorem requestsSendOnlyListedWords : Obligations.RequestsSendOnlyListedWords := by
  intro i s t evs hi h ht w hw
  obtain ⟨evs', ht', emits⟩ := exec_request_emits hi h
  obtain rfl := List.append_cancel_left (ht.symm.trans ht')
  obtain ⟨ws, hs, hl⟩ := emits.sends
  exact hl w (hs.outputWords s.lines ▸ hw)

/-! ### The cells the data bytes go to (20_memory R35, R45) -/

@[simp] theorem instrOfWord_encode (i : Instr) : instrOfWord (some (encode i)) = some i := by
  rw [instrOfWord, Option.bind_some, decodeEncodeRoundTrip i]
  rfl

/-- Data bytes go to consecutive cells. -/
theorem cellWrites_writeData (sp : Space) (n : Nat) (t : Text) :
    cellWrites (some (sp, n)) (t.map .outWriteData) =
      t.mapIdx fun j b => ({ space := sp, address := n + j, value := b } : CellWrite) := by
  induction t generalizing n with
  | nil => rfl
  | cons b t ih =>
    rw [List.map_cons, List.mapIdx_cons, cellWrites, ih]
    simp only [Nat.add_zero, Nat.add_assoc, Nat.add_comm 1]

/-- The instructions of an address command and a text. -/
theorem outputInstrs_lineWrite {a : Byte} {o : Instr} (ho : encode o = .byte8 (0#1 ++ a)) (t : Text) (ls : Lines) :
    outputInstrs ls (lineWrite a t) = o :: t.map .outWriteData := by
  have data (b : Byte) : instrOfWord (some (.byte8 (1#1 ++ b))) = some (.outWriteData b) :=
    instrOfWord_encode (.outWriteData b)
  rw [outputInstrs, (Sends.lineWrite a t).outputWords, ← ho, List.filterMap_cons, instrOfWord_encode,
    List.filterMap_map]
  simp only [Function.comp_def, data, List.filterMap_eq_map']

/-- A text written from a DDRAM address. -/
theorem addressedWrites_ddram {g : Geometry} {a : Byte} (h : a ∈ Spec.addressBytes g) (t : Text) (ls : Lines) :
    addressedWrites ls (lineWrite a t) =
      t.mapIdx fun j b => ({ space := .ddram, address := a.toNat - 0x80 + j, value := b } : CellWrite) := by
  obtain ⟨-, hword, haddress⟩ := addressByte_eq h
  have ho : encode (.outSetDdramAddr (a.extractLsb' 0 7)) = .byte8 (0#1 ++ a) := by rw [hword]; rfl
  rw [addressedWrites, outputInstrs_lineWrite ho, cellWrites, haddress, cellWrites_writeData]

/-- A glyph written at a position below 8. -/
theorem addressedWrites_cgram {position : Byte} (h : position.toNat < 8) (definition : Text) (ls : Lines) :
    addressedWrites ls (glyphWrite position definition) =
      definition.mapIdx fun j b =>
        ({ space := .cgram, address := position.toNat * 8 + j, value := b } : CellWrite) := by
  have hmod : position.toNat % 32 = position.toNat := Nat.mod_eq_of_lt (by omega)
  have ho : encode (.outSetCgramAddr (BitVec.ofNat 6 (position.toNat * 8))) =
      .byte8 (0#1 ++ glyphCommand position) := by
    rw [glyphCommand_cgram (by omega), hmod]
    rfl
  have haddress : (BitVec.ofNat 6 (position.toNat * 8)).toNat = position.toNat * 8 := by
    rw [BitVec.toNat_ofNat, Nat.mod_eq_of_lt (by omega)]
  rw [addressedWrites, glyphWrite_eq_lineWrite, outputInstrs_lineWrite ho, cellWrites, haddress, cellWrites_writeData]

/-- Settles O42: a miss writes its line from its address byte, `SetChar` its rows from the base of the glyph. -/
theorem bytesLandInTheirCells : Obligations.BytesLandInTheirCells := by
  refine ⟨fun s t i a text evs ha hi hmiss h ht => ?display, fun s t position definition evs ha hp hl h ht => ?glyph⟩
  case display =>
    rw [exec_reqDisplay_natCast text ha (lt_lines_of_getElem? hi), displayLine_of_miss hmiss,
      lineAddr_of_getElem? hi] at h
    cases h
    rw [← List.append_cancel_left ht, addressedWrites_ddram (List.mem_of_getElem? hi)]
  case glyph =>
    rw [exec_reqSetChar_of_active position ha hl] at h
    cases h
    rw [← List.append_cancel_left ht, addressedWrites_cgram hp]

end Sys2Proof.Machine
end

section
/-! PROOFS. The hazards (70 R127 to R130): the framer calls a run of events is read as, with the pauses after them, and
the enable pulses. -/

namespace Sys2Proof.Machine

variable {PinId : Type}

/-! ### Runs of framer calls with their pauses -/

/-- A framer call: its mode, its nibbles, and what passes after its last pulse before the next call. -/
structure PacedCall where
  rs : Bool
  nibbles : List Nibble
  pause : Nat

/-- The transfers that a run of calls is read as, `since` having passed since the last latch before it. -/
def transfersOf (t : Timing) (since : Nat) : List PacedCall → List Transfer
  | [] => []
  | k :: ks =>
    { rs := k.rs, nibbles := k.nibbles, gapBefore := since + t.tPulse + t.tPulse, settleAfter := t.tPulse + k.pause } ::
      transfersOf t (t.tPulse + k.pause) ks

/-- What has passed since the last latch after a run of calls. -/
def sinceAfter (t : Timing) (since : Nat) : List PacedCall → Nat
  | [] => since
  | k :: ks => sinceAfter t (t.tPulse + k.pause) ks

theorem transfersOf_append (t : Timing) (since : Nat) (ks ls : List PacedCall) :
    transfersOf t since (ks ++ ls) = transfersOf t since ks ++ transfersOf t (sinceAfter t since ks) ls := by
  induction ks generalizing since with
  | nil => rfl
  | cons k ks ih => simp only [List.cons_append, transfersOf, sinceAfter, ih]

theorem sinceAfter_append (t : Timing) (since : Nat) (ks ls : List PacedCall) :
    sinceAfter t since (ks ++ ls) = sinceAfter t (sinceAfter t since ks) ls := by
  induction ks generalizing since with
  | nil => rfl
  | cons k ks ih => simp only [List.cons_append, sinceAfter, ih]

/-- A run of events is read as exactly these calls, whatever was read before it. -/
def Reads (t : Timing) (evs : List Event) (ks : List PacedCall) : Prop :=
  ∀ sc, callsOf (evs.foldl (scanEvent t) sc) = callsOf sc ++ transfersOf t sc.sinceLatch ks ∧
    (evs.foldl (scanEvent t) sc).sinceLatch = sinceAfter t sc.sinceLatch ks

namespace Reads

theorem transfersFrom {t : Timing} {evs : List Event} {ks : List PacedCall} (h : Reads t evs ks) (ls : Lines) :
    transfersFrom t ls evs = transfersOf t 0 ks := by
  rw [transfersFrom_eq, (h _).1]
  rfl

theorem nil (t : Timing) : Reads t [] [] := fun _ => ⟨(List.append_nil _).symm, rfl⟩

theorem append {t : Timing} {xs ys : List Event} {ks ls : List PacedCall} (h : Reads t xs ks) (k : Reads t ys ls) :
    Reads t (xs ++ ys) (ks ++ ls) := by
  intro sc
  obtain ⟨hcalls, hsince⟩ := h sc
  obtain ⟨kcalls, ksince⟩ := k (xs.foldl (scanEvent t) sc)
  rw [List.foldl_append, kcalls, hcalls, ksince, hsince, transfersOf_append, sinceAfter_append, List.append_assoc]
  exact ⟨rfl, rfl⟩

/-- Neither `LOW`, `REL`, `ACQ` nor `BL` is a call, and none takes time. -/
theorem other (t : Timing) {ev : Event} (h : ev = .low ∨ ev = .rel ∨ ev = .acq ∨ ∃ v, ev = .bl v) :
    Reads t [ev] [] := by
  intro sc
  rcases h with rfl | rfl | rfl | ⟨v, rfl⟩ <;> simp [scanEvent, closeTransfer, callsOf, transfersOf, sinceAfter]

/-- A scan after a call is the scan before it with that call read. -/
theorem of_scanAfterCall {t : Timing} {evs : List Event} {rs : Bool} {ns : List Nibble} {last : Nibble} {settle : Nat}
    (h : ∀ sc, evs.foldl (scanEvent t) sc = scanAfterCall t sc rs ns last settle) :
    Reads t evs [{ rs := rs, nibbles := ns, pause := settle }] := by
  intro sc
  rw [h]
  exact ⟨rfl, rfl⟩

/-- A wait after a call lengthens its pause. -/
theorem of_scanAfterCall_wait {t : Timing} {evs : List Event} {rs : Bool} {ns : List Nibble} {last : Nibble}
    {settle : Nat} (h : ∀ sc, evs.foldl (scanEvent t) sc = scanAfterCall t sc rs ns last settle) (d : Delay) :
    Reads t (evs ++ [.wait d]) [{ rs := rs, nibbles := ns, pause := settle + duration t d }] := by
  refine of_scanAfterCall (last := last) fun sc => ?_
  rw [List.foldl_append, h]
  simp [scanEvent, scanAfterCall, addWait, applyEvent, Nat.add_assoc]

theorem writeByte (t : Timing) (v : Byte) (rs : Bool) :
    Reads t (writeByte v rs) [{ rs := rs, nibbles := [hiNibble v, loNibble v], pause := t.tSettle }] :=
  of_scanAfterCall fun sc => scan_writeByte t sc v rs

theorem command (t : Timing) (v : Byte) :
    Reads t (command v) [{ rs := false, nibbles := [hiNibble v, loNibble v], pause := t.tSettle }] :=
  writeByte t v false

theorem clearCommand (t : Timing) :
    Reads t clearCommand [{ rs := false, nibbles := [0x0, 0x1], pause := t.tSettle + t.tClear }] :=
  of_scanAfterCall_wait (fun sc => scan_writeByte t sc 0x01 false) .clear

/-- A single nibble of the initialization sequence with the wait after it. -/
theorem write4Bits_wait (c : Config PinId) (v : Byte) (d : Delay) :
    Reads c.timing (write4Bits c v false ++ [.wait d])
      [{ rs := false, nibbles := [loNibble v], pause := nibbleSettle c + duration c.timing d }] :=
  of_scanAfterCall_wait (fun sc => scan_write4Bits c c.timing sc v false) d

end Reads

/-- The calls of the initialization sequence with their pauses (40 R80). -/
def initCalls (c : Config PinId) : List PacedCall :=
  [{ rs := false, nibbles := [0x3], pause := nibbleSettle c + c.timing.tInitLong },
   { rs := false, nibbles := [0x3], pause := nibbleSettle c + c.timing.tInitShort },
   { rs := false, nibbles := [0x3], pause := nibbleSettle c + c.timing.tInitShort },
   { rs := false, nibbles := [0x2], pause := nibbleSettle c + c.timing.tInitShort },
   { rs := false, nibbles := [0x2, 0x8], pause := c.timing.tSettle },
   { rs := false, nibbles := [0x0, 0xC], pause := c.timing.tSettle },
   { rs := false, nibbles := [0x0, 0x6], pause := c.timing.tSettle },
   { rs := false, nibbles := [0x0, 0x1], pause := c.timing.tSettle + c.timing.tClear }]

theorem Reads.initSeq (c : Config PinId) : Reads c.timing (initSeq c) (initCalls c) := by
  have nibble (v : Byte) (d : Delay) := Reads.write4Bits_wait c v d
  have h := (((nibble 3 .initLong).append (nibble 3 .initShort)).append (nibble 3 .initShort)).append
    (nibble 2 .initShort)
  have k := h.append ((((Reads.command _ 0x28).append (.command _ 0x0C)).append (.command _ 0x06)).append
    (.clearCommand _))
  simp only [Machine.initSeq, List.append_assoc] at k ⊢
  exact k

/-! ### The checks on the transfers of such a run -/

/-- A call that settles: a byte pauses for `T_SETTLE`, and so does a nibble where the switch asks for it. -/
def Settles (c : Config PinId) (k : PacedCall) : Prop :=
  (k.nibbles.length = 2 ∨ (k.nibbles.length = 1 ∧ c.switches.write4Settle = true)) → c.timing.tSettle ≤ k.pause

theorem settleOk_transfersOf {c : Config PinId} {ks : List PacedCall} (h : ∀ k ∈ ks, Settles c k) (since : Nat) :
    settleOk c (transfersOf c.timing since ks) = true := by
  induction ks generalizing since with
  | nil => rfl
  | cons k ks ih =>
    obtain ⟨hk, hks⟩ := List.forall_mem_cons.mp h
    rw [transfersOf, settleOk, List.all_cons, Bool.and_eq_true]
    refine ⟨?_, ih hks _⟩
    split
    · next hn =>
      have hp := hk hn
      exact decide_eq_true (by dsimp only; omega)
    · rfl

/-- A call that is no clear command or pauses for `T_CLEAR`. -/
def Clears (t : Timing) (k : PacedCall) : Prop := k.rs = false → k.nibbles = [0x0, 0x1] → t.tClear ≤ k.pause

theorem clearGapOk_transfersOf {c : Config PinId} {ks : List PacedCall} (h : ∀ k ∈ ks.dropLast, Clears c.timing k)
    (since : Nat) : clearGapOk c (transfersOf c.timing since ks) = true := by
  induction ks generalizing since with
  | nil => rfl
  | cons k ks ih =>
    cases ks with
    | nil => rfl
    | cons k' ks =>
      obtain ⟨hk, hks⟩ := List.forall_mem_cons.mp h
      rw [transfersOf, transfersOf, clearGapOk, Bool.and_eq_true]
      refine ⟨?_, ih hks _⟩
      by_cases hc : k.rs = false ∧ k.nibbles = [0x0, 0x1]
      · have hp := hk hc.1 hc.2
        rw [Bool.or_eq_true]
        exact .inr (decide_eq_true (by dsimp only; omega))
      · rw [isClearTransfer, decide_eq_false hc]
        rfl

/-- Where every call is a byte there is no initialization wait to keep. -/
theorem initGapOk_transfersOf {c : Config PinId} {ks : List PacedCall} (h : ∀ k ∈ ks, k.nibbles.length = 2)
    (since : Nat) : initGapOk c true (transfersOf c.timing since ks) = true := by
  induction ks generalizing since with
  | nil => rfl
  | cons k ks ih =>
    cases ks with
    | nil => rfl
    | cons k' ks =>
      obtain ⟨hk, hks⟩ := List.forall_mem_cons.mp h
      have hne : k.nibbles.length ≠ 1 := by omega
      rw [transfersOf, transfersOf, initGapOk, if_neg hne]
      exact ih hks _

/-- The initialization sequence keeps its own waits. -/
theorem initGapOk_initCalls (c : Config PinId) (since : Nat) :
    initGapOk c true (transfersOf c.timing since (initCalls c)) = true := by
  simp [initCalls, transfersOf, initGapOk]
  omega

theorem settles_initCalls (c : Config PinId) : ∀ k ∈ initCalls c, Settles c k := by
  simp only [initCalls, List.forall_mem_cons, Settles, nibbleSettle]
  refine ⟨?_, ?_, ?_, ?_, ?_, ?_, ?_, ?_, nofun⟩ <;> simp +contextual

theorem clears_initCalls (c : Config PinId) : ∀ k ∈ (initCalls c).dropLast, Clears c.timing k := by
  simp [initCalls, Clears]

/-- What the three checks ask of the transfers of a run. -/
def KeepsWaits (c : Config PinId) (ls : Lines) (evs : List Event) : Prop :=
  settleOk c (transfersFrom c.timing ls evs) = true ∧ clearGapOk c (transfersFrom c.timing ls evs) = true ∧
    initGapOk c true (transfersFrom c.timing ls evs) = true

theorem keepsWaits_initSeq (c : Config PinId) {before : List Event} (h : Reads c.timing before []) (ls : Lines) :
    KeepsWaits c ls (before ++ initSeq c) := by
  rw [KeepsWaits, (h.append (.initSeq c)).transfersFrom]
  exact ⟨settleOk_transfersOf (settles_initCalls c) 0, clearGapOk_transfersOf (clears_initCalls c) 0,
    initGapOk_initCalls c 0⟩

/-- A byte that settles, and pauses for `T_CLEAR` if it is the clear command. -/
structure Paced (c : Config PinId) (k : PacedCall) : Prop where
  byte : k.nibbles.length = 2
  settle : c.timing.tSettle ≤ k.pause
  clear : Clears c.timing k

/-- A run of events that is read as such bytes. -/
def PacedRun (c : Config PinId) (evs : List Event) : Prop := ∃ ks, Reads c.timing evs ks ∧ ∀ k ∈ ks, Paced c k

namespace PacedRun

variable {c : Config PinId}

theorem append {xs ys : List Event} (h : PacedRun c xs) (k : PacedRun c ys) : PacedRun c (xs ++ ys) := by
  obtain ⟨ks, hr, hp⟩ := h
  obtain ⟨ls, kr, kp⟩ := k
  exact ⟨ks ++ ls, hr.append kr, List.forall_mem_append.mpr ⟨hp, kp⟩⟩

theorem silent {evs : List Event} (h : Reads c.timing evs []) : PacedRun c evs := ⟨[], h, nofun⟩

/-- Any command byte but the clear command. -/
theorem command {v : Byte} (h : v ≠ 0x01) : PacedRun c (command v) := by
  refine ⟨_, .command _ v, List.forall_mem_singleton.mpr ⟨rfl, le_rfl, fun _ hn => absurd ?_ h⟩⟩
  rw [List.cons.injEq, List.cons.injEq] at hn
  have hv := hi_append_lo v
  rw [hn.1, hn.2.1] at hv
  exact hv.symm

theorem character (v : Byte) : PacedRun c (character v) :=
  ⟨_, .writeByte _ v true, List.forall_mem_singleton.mpr ⟨rfl, le_rfl, nofun⟩⟩

theorem clearCommand : PacedRun c clearCommand :=
  ⟨_, .clearCommand _, List.forall_mem_singleton.mpr ⟨rfl, Nat.le_add_right _ _, fun _ _ => Nat.le_add_left _ _⟩⟩

theorem lineWrite {a : Byte} (h : a ≠ 0x01) (t : Text) : PacedRun c (lineWrite a t) :=
  (command h).append (flatMap_of_append (silent (.nil _)) append fun b _ => character b)

theorem clearLines (g : Geometry) : PacedRun c (clearLines g) := by
  have address : ∀ a ∈ lineTable g, a ≠ 0x01 := by cases g <;> decide
  exact flatMap_of_append (silent (.nil _)) append fun a ha => lineWrite (address a ha) _

/-- Such a run keeps the waits, and one more byte that settles after it does too: nothing follows that it must wait
for. -/
theorem keepsWaits_append {xs ys : List Event} (h : PacedRun c xs) {k : PacedCall} (hy : Reads c.timing ys [k])
    (hbyte : k.nibbles.length = 2) (hsettle : c.timing.tSettle ≤ k.pause) (ls : Lines) :
    KeepsWaits c ls (xs ++ ys) := by
  obtain ⟨ks, hr, hp⟩ := h
  rw [KeepsWaits, (hr.append hy).transfersFrom]
  refine ⟨settleOk_transfersOf ?_ 0, clearGapOk_transfersOf ?_ 0, initGapOk_transfersOf ?_ 0⟩
  · exact List.forall_mem_append.mpr ⟨fun l hl _ => (hp l hl).settle, List.forall_mem_singleton.mpr fun _ => hsettle⟩
  · rw [List.dropLast_concat]
    exact fun l hl => (hp l hl).clear
  · exact List.forall_mem_append.mpr ⟨fun l hl => (hp l hl).byte, List.forall_mem_singleton.mpr hbyte⟩

theorem keepsWaits {evs : List Event} (h : PacedRun c evs) (ls : Lines) : KeepsWaits c ls evs := by
  obtain ⟨ks, hr, hp⟩ := h
  rw [KeepsWaits, hr.transfersFrom]
  exact ⟨settleOk_transfersOf (fun k hk _ => (hp k hk).settle) 0,
    clearGapOk_transfersOf (fun k hk => (hp k (List.mem_of_mem_dropLast hk)).clear) 0,
    initGapOk_transfersOf (fun k hk => (hp k hk).byte) 0⟩

end PacedRun

/-! ### The enable pulses (R130) -/

theorem pulseTimingOk_append (t : Timing) (w : PulseWatch) (xs ys : List Event) :
    pulseTimingOk t w (xs ++ ys) = (pulseTimingOk t w xs && pulseTimingOk t (xs.foldl (watchEvent t) w) ys) := by
  induction xs generalizing w with
  | nil => rfl
  | cons ev xs ih => simp only [List.cons_append, pulseTimingOk, List.foldl_cons, ih, Bool.and_assoc]

/-- E is not high, and any line may move: the last fall of E is `T_PULSE` back. -/
structure PulseReady (t : Timing) (w : PulseWatch) : Prop where
  low : w.lines.e ≠ .high
  held : heldAfterFall t w = true

/-- A run of events that keeps the pulse timing where the watch is ready, and leaves it ready. -/
def KeepsPulses (t : Timing) (evs : List Event) : Prop :=
  ∀ w, PulseReady t w → pulseTimingOk t w evs = true ∧ PulseReady t (evs.foldl (watchEvent t) w)

namespace KeepsPulses

variable {t : Timing}

theorem nil : KeepsPulses t [] := fun _ hw => ⟨rfl, hw⟩

theorem append {xs ys : List Event} (h : KeepsPulses t xs) (k : KeepsPulses t ys) : KeepsPulses t (xs ++ ys) := by
  intro w hw
  obtain ⟨hok, hready⟩ := h w hw
  obtain ⟨kok, kready⟩ := k _ hready
  rw [pulseTimingOk_append, hok, kok, List.foldl_append]
  exact ⟨rfl, kready⟩

theorem cons {ev : Event} {ys : List Event} (h : KeepsPulses t [ev]) (k : KeepsPulses t ys) :
    KeepsPulses t (ev :: ys) :=
  h.append k

/-- RS or a data line is driven. -/
theorem pin (p : Line) (h : p ≠ .e) (v : Bool) : KeepsPulses t [.pin p v] := by
  rintro w ⟨low, held⟩
  cases p with
  | e => exact absurd rfl h
  | _ => exact ⟨by simp [pulseTimingOk, pulseEventOk, held, low], low, rfl⟩

theorem wait (d : Delay) : KeepsPulses t [.wait d] := by
  rintro w ⟨low, held⟩
  refine ⟨rfl, low, ?_⟩
  cases hf : w.sinceFall with
  | none => simp [watchEvent, heldAfterFall, hf]
  | some n =>
    have hn : t.tPulse ≤ n := by simpa [heldAfterFall, hf] using held
    simp [watchEvent, heldAfterFall, hf]
    omega

/-- What leaves E low or undriven, or moves no line. -/
theorem other {ev : Event} (h : ev = .low ∨ ev = .rel ∨ ev = .acq ∨ ∃ v, ev = .bl v) : KeepsPulses t [ev] := by
  rintro w ⟨low, held⟩
  rcases h with rfl | rfl | rfl | ⟨v, rfl⟩
  · exact ⟨by simp [pulseTimingOk, pulseEventOk, held], nofun, rfl⟩
  · exact ⟨by simp [pulseTimingOk, pulseEventOk, held], nofun, rfl⟩
  · exact ⟨rfl, low, held⟩
  · exact ⟨rfl, low, held⟩

/-- E goes up and down, the setup time having passed. -/
theorem edges {w : PulseWatch} (held : heldAfterFall t w = true) (setup : t.tPulse ≤ w.sinceData) :
    pulseTimingOk t w [.pin .e true, .wait .pulse, .pin .e false, .wait .pulse] = true ∧
      PulseReady t ([.pin .e true, .wait .pulse, .pin .e false, .wait .pulse].foldl (watchEvent t) w) := by
  refine ⟨?_, nofun, ?_⟩
  · simp [pulseTimingOk, pulseEventOk, watchEvent, duration, applyEvent, setLine, held, setup]
  · simp [watchEvent, heldAfterFall, duration, applyEvent, setLine]

/-- E goes up and down, a pulse wait around each edge. -/
theorem strobe : KeepsPulses t [.wait .pulse, .pin .e true, .wait .pulse, .pin .e false, .wait .pulse] := by
  rintro w hw
  obtain ⟨-, -, held⟩ := wait .pulse w hw
  have setup : t.tPulse ≤ (watchEvent t w (.wait .pulse)).sinceData := Nat.le_add_left _ _
  exact edges held setup

theorem pulse (n : Nibble) : KeepsPulses t (pulse n) :=
  (pin .d4 nofun _).cons ((pin .d5 nofun _).cons ((pin .d6 nofun _).cons ((pin .d7 nofun _).cons strobe)))

theorem writeByte (v : Byte) (rs : Bool) : KeepsPulses t (writeByte v rs) :=
  (pin .rs nofun rs).cons (((pulse _).append (pulse _)).append (wait .settle))

theorem write4Bits (c : Config PinId) (v : Byte) (rs : Bool) : KeepsPulses t (write4Bits c v rs) := by
  refine (pin .rs nofun rs).cons ((pulse _).append ?_)
  split
  · exact wait .settle
  · exact nil

theorem command (v : Byte) : KeepsPulses t (command v) := writeByte v false

theorem lineWrite (a : Byte) (text : Text) : KeepsPulses t (lineWrite a text) :=
  (command a).append (flatMap_of_append nil append fun b _ => writeByte b true)

theorem clearLines (g : Geometry) : KeepsPulses t (clearLines g) :=
  flatMap_of_append nil append fun a _ => lineWrite a _

theorem clearCommand : KeepsPulses t clearCommand := (command 0x01).append (wait .clear)

theorem closeCommands (c : Config PinId) : KeepsPulses t (closeCommands c) := by
  unfold Machine.closeCommands
  split
  · exact clearCommand.append (command _)
  · exact (command _).append (command _)

theorem initSeq (c : Config PinId) : KeepsPulses t (initSeq c) := by
  have nibble (v : Byte) : KeepsPulses t (Machine.write4Bits c v false) := write4Bits c v false
  exact (nibble 3).append (wait _) |>.append (nibble 3) |>.append (wait _) |>.append (nibble 3) |>.append (wait _)
    |>.append (nibble 2) |>.append (wait _) |>.append (command _) |>.append (command _) |>.append (command _)
    |>.append clearCommand

theorem light (p : Prop) [Decidable p] (v : Bool) : KeepsPulses t (if p then [.bl v] else []) := by
  split
  · exact other (.inr (.inr (.inr ⟨v, rfl⟩)))
  · exact nil

/-- From lines with E not high the run keeps the timing. -/
theorem ok {evs : List Event} (h : KeepsPulses t evs) {ls : Lines} (hl : ls.e ≠ .high) :
    pulseTimingOk t (PulseWatch.start ls) evs = true :=
  (h _ ⟨hl, rfl⟩).1

/-- After the acquisition and the low lines it does so from any lines. -/
theorem ok_acquired {evs : List Event} (h : KeepsPulses t evs) (ls : Lines) :
    pulseTimingOk t (PulseWatch.start ls) ([.acq, .low] ++ evs) = true :=
  (h _ ⟨(nofun : Level.low ≠ .high), rfl⟩).1

end KeepsPulses

/-! ### The requests -/

theorem Reads.light (t : Timing) (p : Prop) [Decidable p] (v : Bool) : Reads t (if p then [.bl v] else []) [] := by
  split
  · exact .other t (.inr (.inr (.inr ⟨v, rfl⟩)))
  · exact .nil t

theorem Reads.acquired (t : Timing) : Reads t [.acq, .low] [] :=
  (Reads.other t (.inr (.inr (.inl rfl)))).append (.other t (.inl rfl))

theorem Reads.released (t : Timing) : Reads t [.low, .rel] [] :=
  (Reads.other t (.inl rfl)).append (.other t (.inr (.inl rfl)))

/-- What `Close` adds keeps the waits with its clear wait on: after the display-off byte, whatever it is, no byte
follows. -/
theorem keepsWaits_close {s : State PinId} (h : s.cfg.switches.closeClearWait = true) (ls : Lines) :
    KeepsWaits s.cfg ls
      (clearLines s.cfg.geometry ++ closeCommands s.cfg ++ (if s.isI2c then [.bl false] else []) ++ [.low, .rel]) := by
  have last : Reads s.cfg.timing
      (command s.cfg.switches.displayOffCmd ++ ((if s.isI2c then [.bl false] else []) ++ [.low, .rel]))
      [{ rs := false, nibbles := [hiNibble s.cfg.switches.displayOffCmd, loNibble s.cfg.switches.displayOffCmd],
         pause := s.cfg.timing.tSettle }] :=
    (Reads.command _ _).append ((Reads.light _ _ _).append (.released _))
  have blanked : PacedRun s.cfg (clearLines s.cfg.geometry ++ clearCommand) :=
    (PacedRun.clearLines _).append .clearCommand
  have keeps := blanked.keepsWaits_append last rfl le_rfl ls
  rw [closeCommands, if_pos h]
  simpa only [List.append_assoc] using keeps

theorem ne_clear_of_mem_addressBytes {g : Geometry} {a : Byte} (h : a ∈ Spec.addressBytes g) : a ≠ 0x01 := by
  revert a
  cases g <;> decide

theorem glyphCommand_ne_clear (position : Byte) : glyphCommand position ≠ 0x01 := by
  revert position; decide

/-- Every run a request adds keeps the waits. -/
theorem Emits.keepsWaits {i : Instr} {s : State PinId} {evs : List Event} (h : Emits s i evs)
    (hclose : i = .reqClose → s.cfg.switches.closeClearWait = true) (ls : Lines) : KeepsWaits s.cfg ls evs := by
  cases h with
  | silent => exact (PacedRun.silent (.nil _)).keepsWaits ls
  | opens => exact keepsWaits_initSeq s.cfg ((Reads.acquired _).append (.light _ _ _)) ls
  | resets => exact keepsWaits_initSeq s.cfg (.nil _) ls
  | closes => exact keepsWaits_close (hclose rfl) ls
  | clears => exact (PacedRun.clearLines _).keepsWaits ls
  | displays line text _ hr =>
    exact (PacedRun.lineWrite (ne_clear_of_mem_addressBytes (lineAddr_mem_of_inRange hr)) _).keepsWaits ls
  | draws position definition => exact (PacedRun.lineWrite (glyphCommand_ne_clear position) _).keepsWaits ls
  | lights => exact (PacedRun.silent (.other _ (.inr (.inr (.inr ⟨_, rfl⟩))))).keepsWaits ls

/-- Every run a request adds keeps the pulse timing: an `Open` drives E low first, and any other that emits finds the
block active. -/
theorem Emits.pulseTimingOk {i : Instr} {s : State PinId} {evs : List Event} (h : Emits s i evs) (t : Timing)
    (hlow : s.active = true → s.lines.e ≠ .high) : pulseTimingOk t (PulseWatch.start s.lines) evs = true := by
  cases h with
  | silent => rfl
  | opens =>
    rw [List.append_assoc]
    exact ((KeepsPulses.light _ _).append (.initSeq _)).ok_acquired s.lines
  | resets ha => exact (KeepsPulses.initSeq _).ok (hlow ha)
  | closes ha =>
    exact ((((KeepsPulses.clearLines _).append (.closeCommands _)).append (.light _ _)).append
      ((KeepsPulses.other (.inl rfl)).append (.other (.inr (.inl rfl))))).ok (hlow ha)
  | clears ha => exact (KeepsPulses.clearLines _).ok (hlow ha)
  | displays _ _ ha => exact (KeepsPulses.lineWrite _ _).ok (hlow ha)
  | draws _ _ ha => exact (KeepsPulses.lineWrite _ _).ok (hlow ha)
  | lights ha => exact (KeepsPulses.other (.inr (.inr (.inr ⟨_, rfl⟩)))).ok (hlow ha)

/-- Settles O43, by the runs a request can add. -/
theorem requestsKeepHazards : Obligations.RequestsKeepHazards := by
  intro i s t evs hi hlow hclose h ht
  obtain ⟨evs', ht', emits⟩ := exec_request_emits hi h
  obtain rfl := List.append_cancel_left (ht.symm.trans ht')
  exact ⟨emits.pulseTimingOk _ hlow, emits.keepsWaits hclose s.lines⟩

end Sys2Proof.Machine
end

section
/-! PROOFS. The table of event counts and minimum waits (70 R135): the counts of each run of framer calls, and of what
each request adds. -/

namespace Sys2Proof.Machine

variable {PinId : Type}

/-! ### The counts of the runs -/

/-- A run of `n` bytes. -/
def ByteCounts (t : Timing) (evs : List Event) (n : Nat) : Prop :=
  Spec.Counts t evs (n * 20) (n * 13) (n * 7) [] (n * Spec.byteWait t)

namespace ByteCounts

variable {t : Timing}

theorem nil : ByteCounts t [] 0 := ⟨rfl, rfl, rfl, rfl, (Nat.zero_mul _).symm⟩

theorem append {xs ys : List Event} {n m : Nat} (h : ByteCounts t xs n) (k : ByteCounts t ys m) :
    ByteCounts t (xs ++ ys) (n + m) := by
  have sum := counts_append h k
  simp only [← Nat.add_mul] at sum
  exact sum

theorem writeByte (v : Byte) (rs : Bool) : ByteCounts t (writeByte v rs) 1 := by
  have h := counts_writeByte t v rs
  rwa [← Nat.one_mul (Spec.byteWait t)] at h

theorem command (v : Byte) : ByteCounts t (command v) 1 := writeByte v false

theorem flatMap {α : Type} {f : α → List Event} {n : Nat} (h : ∀ x, ByteCounts t (f x) n) (xs : List α) :
    ByteCounts t (xs.flatMap f) (xs.length * n) := by
  induction xs with
  | nil => rw [List.length_nil, Nat.zero_mul]; exact nil
  | cons x xs ih =>
    rw [List.flatMap_cons, List.length_cons, Nat.succ_mul, Nat.add_comm]
    exact (h x).append ih

theorem characters (text : Text) : ByteCounts t (characters text) text.length := by
  have h := flatMap (t := t) (fun b => writeByte b true) text
  rwa [Nat.mul_one] at h

theorem lineWrite (a : Byte) (text : Text) : ByteCounts t (lineWrite a text) (1 + text.length) :=
  (command a).append (characters text)

theorem clearLines (g : Geometry) : ByteCounts t (clearLines g) (g.lines * (1 + g.width)) := by
  have h := flatMap (t := t) (fun a => lineWrite a (blankLine g.width)) (lineTable g)
  rwa [lineTable_length, blankLine, List.length_replicate] at h

end ByteCounts

/-! ### What a request adds -/

theorem added_eq {s t : State} {evs : List Event} (h : t.trace = s.trace ++ evs) : Spec.added s t = evs := by
  rw [Spec.added, h, List.drop_left]

theorem added_eq_nil {s t : State} (h : t.trace = s.trace) : Spec.added s t = [] :=
  added_eq (h.trans (List.append_nil _).symm)

/-- The light of `Open` and `Close`, where the variant has one. -/
theorem counts_light (t : Timing) (p : Prop) [Decidable p] (v : Bool) :
    Spec.Counts t (if p then [.bl v] else []) (if p then 1 else 0) 0 0 (if p then [.bl v] else []) 0 := by
  split <;> exact ⟨rfl, rfl, rfl, rfl, rfl⟩

theorem counts_open {s t : State} (h : exec .reqOpen s = .next t) (hw : s.cfg.switches.write4Settle = true)
    (ha : s.active = false) (hd : (drawAcquire s).1 = true) :
    Spec.Counts s.cfg.timing (Spec.added s t) (if s.isI2c then 132 else 131) 80 49
      ([.acq, .low] ++ if s.isI2c then [.bl s.cfg.switches.backlightAtOpen] else []) (Spec.initWait s.cfg.timing) := by
  obtain ⟨evs, ht, emits⟩ := execReqOpen_emits h
  rw [added_eq ht]
  cases emits with
  | silent _ quiet => simp [ha, hd] at quiet
  | opens =>
    have acquired : Spec.Counts s.cfg.timing [.acq, .low] 2 0 0 [.acq, .low] 0 := ⟨rfl, rfl, rfl, rfl, rfl⟩
    have sum := counts_append (counts_append acquired
      (counts_light s.cfg.timing (s.isI2c = true) s.cfg.switches.backlightAtOpen)) (counts_initSeq hw s.cfg.timing)
    cases hi : s.isI2c <;> simpa [hi] using sum

theorem added_open_eq_nil {s t : State} (h : exec .reqOpen s = .next t)
    (hq : s.active = true ∨ (drawAcquire s).1 = false) : Spec.added s t = [] := by
  obtain ⟨evs, ht, emits⟩ := execReqOpen_emits h
  rw [added_eq ht]
  cases emits with
  | silent => rfl
  | opens ha hd => simp [ha, hd] at hq

theorem counts_reset {s t : State} (h : exec .reqReset s = .next t) (hw : s.cfg.switches.write4Settle = true)
    (ha : s.active = true) :
    Spec.Counts s.cfg.timing (Spec.added s t) 129 80 49 [] (Spec.initWait s.cfg.timing) := by
  rw [added_eq (execReqReset_trace_of_active h ha)]
  exact counts_initSeq hw _

theorem counts_display {s t : State} {line : Int} {text : Text} (h : exec (.reqDisplay line text) s = .next t) :
    if s.active = true ∧ inRange s.cfg.geometry line = true ∧
        s.cache.getD line.toNat none ≠ some (Spec.shownText s.cfg.geometry.width text) then
      ByteCounts s.cfg.timing (Spec.added s t) (1 + s.cfg.geometry.width)
    else Spec.added s t = [] := by
  cases hg : s.active && inRange s.cfg.geometry line with
  | false =>
    rw [exec_reqDisplay_of_gated text hg] at h
    cases h
    rw [if_neg (fun hall => by simp [hall.1, hall.2.1] at hg)]
    exact added_eq_nil rfl
  | true =>
    obtain ⟨ha, hr⟩ := Bool.and_eq_true_iff.mp hg
    rw [exec_reqDisplay text ha hr] at h
    by_cases hhit : s.cache.getD line.toNat none = some (Spec.shownText s.cfg.geometry.width text)
    · rw [displayLine_of_hit hhit] at h
      cases h
      rw [if_neg (fun hall => hall.2.2 hhit)]
      exact added_eq_nil rfl
    · rw [displayLine_of_miss hhit] at h
      cases h
      rw [if_pos ⟨ha, hr, hhit⟩, added_eq rfl]
      have counts := ByteCounts.lineWrite (t := s.cfg.timing) (lineAddr s.cfg.geometry line.toNat)
        (Spec.shownText s.cfg.geometry.width text)
      rwa [shownText_length] at counts

theorem counts_clear {s t : State} (h : exec .reqClear s = .next t) (ha : s.active = true) :
    ByteCounts s.cfg.timing (Spec.added s t) (s.cfg.geometry.lines * (1 + s.cfg.geometry.width)) := by
  cases (clearBlanksEveryLine s ha).symm.trans h
  rw [added_eq rfl, ← clearLines_eq_blankEvents]
  exact .clearLines _

theorem counts_closeCommands {c : Config PinId} (h : c.switches.closeClearWait = true) (t : Timing) :
    Spec.Counts t (closeCommands c) 41 26 15 [] (2 * Spec.byteWait t + t.tClear) := by
  rw [closeCommands, if_pos h]
  obtain ⟨hn, hp, hw, ho, hm⟩ := counts_append
    (counts_append (counts_writeByte t 0x01 false) (counts_wait t .clear))
    (counts_writeByte t c.switches.displayOffCmd false)
  exact ⟨hn, hp, hw, ho, hm.trans (by simp only [duration]; omega)⟩

theorem counts_close {s t : State} (h : exec .reqClose s = .next t) (hw : s.cfg.switches.closeClearWait = true)
    (ha : s.active = true) :
    Spec.Counts s.cfg.timing (Spec.added s t)
      (s.cfg.geometry.lines * (1 + s.cfg.geometry.width) * 20 + if s.isI2c then 44 else 43)
      ((s.cfg.geometry.lines * (1 + s.cfg.geometry.width) + 2) * 13)
      ((s.cfg.geometry.lines * (1 + s.cfg.geometry.width) + 2) * 7 + 1)
      ((if s.isI2c then [.bl false] else []) ++ [.low, .rel])
      ((s.cfg.geometry.lines * (1 + s.cfg.geometry.width) + 2) * Spec.byteWait s.cfg.timing + s.cfg.timing.tClear) := by
  cases (exec_reqClose_of_active ha).symm.trans h
  have released : Spec.Counts s.cfg.timing [.low, .rel] 2 0 0 [.low, .rel] 0 := ⟨rfl, rfl, rfl, rfl, rfl⟩
  obtain ⟨hn, hp, hw', ho, hm⟩ := counts_append (counts_append (counts_append
    (ByteCounts.clearLines (t := s.cfg.timing) s.cfg.geometry) (counts_closeCommands hw s.cfg.timing))
    (counts_light s.cfg.timing (s.isI2c = true) false)) released
  rw [added_eq (closeActive_trace s)]
  refine ⟨hn.trans ?_, hp.trans (by omega), hw'.trans (by omega), ho, hm.trans ?_⟩
  · split <;> rfl
  · rw [Nat.add_mul]
    omega

theorem counts_setChar {s t : State} {position : Byte} {definition : Text}
    (h : exec (.reqSetChar position definition) s = .next t) (ha : s.active = true) (hl : definition.length = 8) :
    Spec.Counts s.cfg.timing (Spec.added s t) 180 117 63 [] (9 * Spec.byteWait s.cfg.timing) := by
  rw [exec_reqSetChar_of_active position ha hl] at h
  cases h
  rw [added_eq rfl, glyphWrite_eq_lineWrite]
  have counts := ByteCounts.lineWrite (t := s.cfg.timing) (glyphCommand position) definition
  rwa [hl] at counts

theorem counts_toggle {s t : State} (h : exec .reqToggleBacklight s = .next t) (hi : s.isI2c = true)
    (ha : s.active = true) : Spec.Counts s.cfg.timing (Spec.added s t) 1 0 0 [.bl !s.backlight] 0 := by
  cases (exec_reqToggleBacklight_of_i2c hi ha).symm.trans h
  rw [added_eq rfl]
  exact ⟨rfl, rfl, rfl, rfl, rfl⟩

/-- Settles O44, row by row. -/
theorem eventCountsAndMinimumWaits : Obligations.EventCountsAndMinimumWaits := by
  refine ⟨counts_pulse, counts_writeByte, fun c v rs hw => ⟨counts_write4Bits hw _ v rs, counts_initSeq hw _⟩,
    fun i s t h hw hclose => ⟨?opens, ?opensNot, ?resets, ?displays, ?clears, ?closes, ?draws, ?toggles, ?asks⟩,
    by decide, by decide⟩
  case opens => rintro rfl ha hd; exact counts_open h hw ha hd
  case opensNot => rintro rfl hq; exact added_open_eq_nil h hq
  case resets => rintro rfl ha; exact counts_reset h hw ha
  case displays => rintro line text rfl; exact counts_display h
  case clears => rintro rfl ha; exact counts_clear h ha
  case closes => rintro rfl ha; exact counts_close h hclose ha
  case draws => rintro position definition rfl ha hl; exact counts_setChar h ha hl
  case toggles => rintro rfl hi ha; exact counts_toggle h hi ha
  case asks => rintro rfl; cases h; exact added_eq_nil rfl

end Sys2Proof.Machine
end

section
/-! PROOFS. The two renderings of a trace (30_encoding R73, R74, R76): the pin calls, and the bytes of the expander with
the level of each line in its bit. -/

namespace Sys2Proof.Machine

variable {PinId : Type}

/-! ### The pin library -/

theorem gpioOfEvent_eq_pinCalls (tm : Timing) (pins : Pins PinId) (ev : Event) :
    gpioOfEvent tm pins ev = Spec.pinCalls tm pins ev := by
  cases ev with
  | pin p v => cases p <;> rfl
  | _ => rfl

theorem gpioCalls_concat (tm : Timing) (pins : Pins PinId) (evs : List Event) (ev : Event) :
    gpioCalls tm pins (evs ++ [ev]) = gpioCalls tm pins evs ++ Spec.pinCalls tm pins ev := by
  rw [gpioCalls, List.flatMap_append, List.flatMap_singleton, gpioOfEvent_eq_pinCalls, gpioCalls]

theorem physicalWrites_cons (ev : Event) (evs : List Event) :
    physicalWrites (ev :: evs) = (if isPhysicalWrite ev then 1 else 0) + physicalWrites evs := by
  rw [physicalWrites, List.filter_cons]
  split
  · rw [List.length_cons, Nat.add_comm, physicalWrites]
  · rw [Nat.zero_add, physicalWrites]

/-- One event but `BL` sets as many pins as it is physical writes, and five more if it is `LOW`. -/
theorem countP_gpioOfEvent (tm : Timing) (pins : Pins PinId) {ev : Event} (h : ∀ v, ev ≠ .bl v) :
    (gpioOfEvent tm pins ev).countP Spec.isSetCall =
      (if isPhysicalWrite ev then 1 else 0) + 5 * (if ev = .low then 1 else 0) := by
  cases ev with
  | bl v => exact absurd rfl (h v)
  | low => rfl
  | _ => rfl

theorem countP_gpioCalls (tm : Timing) (pins : Pins PinId) {evs : List Event} (h : ∀ v, Event.bl v ∉ evs) :
    (gpioCalls tm pins evs).countP Spec.isSetCall = physicalWrites evs + 5 * evs.count .low := by
  induction evs with
  | nil => rfl
  | cons ev evs ih =>
    have hev : ∀ v, ev ≠ .bl v := fun v he => h v (he ▸ List.mem_cons_self)
    have hevs : ∀ v, Event.bl v ∉ evs := fun v hm => h v (List.mem_cons_of_mem _ hm)
    have hcalls : gpioCalls tm pins (ev :: evs) = gpioOfEvent tm pins ev ++ gpioCalls tm pins evs := rfl
    rw [hcalls, List.countP_append, countP_gpioOfEvent tm pins hev, ih hevs, physicalWrites_cons, List.count_cons]
    simp only [beq_iff_eq]
    omega

/-- A pin call names one of the six pins. -/
theorem pin_mem_of_set_mem {tm : Timing} {pins : Pins PinId} {evs : List Event} {p : PinId} {v : Bool}
    (h : GpioCall.set p v ∈ gpioCalls tm pins evs) :
    p ∈ [pins.rs, pins.e, pins.d4, pins.d5, pins.d6, pins.d7] := by
  obtain ⟨ev, -, hev⟩ := List.mem_flatMap.mp h
  have named (l : Line) : pinOf pins l ∈ [pins.rs, pins.e, pins.d4, pins.d5, pins.d6, pins.d7] := by
    cases l <;> simp [pinOf]
  cases ev with
  | low =>
    obtain ⟨l, -, hl⟩ := List.mem_map.mp hev
    cases hl
    exact named l
  | pin l w =>
    cases List.mem_singleton.mp hev
    exact named l
  | bl w => cases hev
  | acq | rel | wait d => cases List.mem_singleton.mp hev

/-- Settles O60, event by event. -/
theorem gpioRendering : Obligations.GpioRendering := by
  refine fun PinId => ⟨fun tm pins => ⟨rfl, gpioCalls_concat tm pins, fun evs h =>
    ⟨countP_gpioCalls tm pins h, fun p v => pin_mem_of_set_mem⟩⟩, fun s => ⟨fun pins h => ?gpio, ?i2c⟩⟩
  case gpio => simp only [State.gpioCalls, h]
  case i2c =>
    rintro ⟨addr, h⟩
    simp only [State.gpioCalls, h]

/-! ### The levels after a run of events -/

theorem levelBit_eq_decide (l : Level) : levelBit l = decide (l = .high) := by cases l <;> rfl

theorem getLine_setLine (p q : Line) (v : Level) (ls : Lines) :
    getLine p (setLine q v ls) = if q = p then v else getLine p ls := by
  cases p <;> cases q <;> rfl

/-- An event gives a line the level it drives it to, or leaves it. -/
theorem getLine_applyEvent (p : Line) (ls : Lines) (ev : Event) :
    getLine p (applyEvent ls ev) = (Spec.driven p ev).getD (getLine p ls) := by
  cases ev with
  | pin q v =>
    rw [applyEvent, getLine_setLine, Spec.driven]
    split <;> rfl
  | low | rel => cases p <;> rfl
  | _ => rfl

theorem getLine_applyEvents (p : Line) (ls : Lines) (evs : List Event) :
    getLine p (applyEvents ls evs) = (evs.filterMap (Spec.driven p)).getLastD (getLine p ls) := by
  induction evs generalizing ls with
  | nil => rfl
  | cons ev evs ih =>
    rw [applyEvents_cons, ih, getLine_applyEvent, List.filterMap_cons]
    cases Spec.driven p ev with
    | none => rfl
    | some l => rw [Option.getD_some, List.getLastD_cons]

theorem levelBit_getLine (p : Line) (ls : Lines) (evs : List Event) :
    levelBit (getLine p (applyEvents ls evs)) = Spec.lineIsHigh p ls evs := by
  rw [levelBit_eq_decide, getLine_applyEvents, Spec.lineIsHigh]

/-- The backlight after a run of events. -/
theorem foldl_lightAfter (light : Bool) (evs : List Event) :
    evs.foldl lightAfter light = Spec.lightIsOn light evs := by
  rw [Spec.lightIsOn]
  induction evs generalizing light with
  | nil => rfl
  | cons ev evs ih =>
    rw [List.foldl_cons, ih, List.filterMap_cons]
    cases ev with
    | bl v => exact (List.getLastD_cons ..).symm
    | _ => rfl

/-! ### The shadow byte -/

/-- Each bit of the shadow byte is its line's level; bit 1 is 0. -/
theorem shadowByte_bits (ls : Lines) (light : Bool) :
    (shadowByte ls light).getLsbD 7 = levelBit ls.d7 ∧ (shadowByte ls light).getLsbD 6 = levelBit ls.d6 ∧
      (shadowByte ls light).getLsbD 5 = levelBit ls.d5 ∧ (shadowByte ls light).getLsbD 4 = levelBit ls.d4 ∧
      (shadowByte ls light).getLsbD 3 = light ∧ (shadowByte ls light).getLsbD 2 = levelBit ls.e ∧
      (shadowByte ls light).getLsbD 1 = false ∧ (shadowByte ls light).getLsbD 0 = levelBit ls.rs := by
  unfold shadowByte nibbleOn
  generalize levelBit ls.d7 = d7
  generalize levelBit ls.d6 = d6
  generalize levelBit ls.d5 = d5
  generalize levelBit ls.d4 = d4
  generalize levelBit ls.e = e
  generalize levelBit ls.rs = rs
  revert d7 d6 d5 d4 light e rs
  decide

/-! ### The bus library -/

theorem expanderCalls_cons (tm : Timing) (addr : BitVec 7) (ls : Lines) (light : Bool) (ev : Event)
    (evs : List Event) :
    expanderCalls tm addr ls light (ev :: evs) =
      Spec.busCalls tm addr (shadowByte (applyEvent ls ev) (lightAfter light ev)) ev ++
        expanderCalls tm addr (applyEvent ls ev) (lightAfter light ev) evs := by
  cases ev <;> rfl

theorem expanderCalls_append (tm : Timing) (addr : BitVec 7) (ls : Lines) (light : Bool) (xs ys : List Event) :
    expanderCalls tm addr ls light (xs ++ ys) =
      expanderCalls tm addr ls light xs ++
        expanderCalls tm addr (applyEvents ls xs) (xs.foldl lightAfter light) ys := by
  induction xs generalizing ls light with
  | nil => rfl
  | cons ev xs ih =>
    rw [List.cons_append, expanderCalls_cons, expanderCalls_cons, ih, List.append_assoc]
    rfl

/-- One more event adds its call, with the byte of the lines and the light after it. -/
theorem expanderCalls_concat (tm : Timing) (addr : BitVec 7) (ls : Lines) (light : Bool) (evs : List Event)
    (ev : Event) :
    expanderCalls tm addr ls light (evs ++ [ev]) =
      expanderCalls tm addr ls light evs ++
        Spec.busCalls tm addr
          (shadowByte (applyEvents ls (evs ++ [ev])) (Spec.lightIsOn light (evs ++ [ev]))) ev := by
  rw [expanderCalls_append, expanderCalls_cons, ← foldl_lightAfter, applyEvents_append, List.foldl_append]
  exact congrArg _ (List.append_nil _)

/-- The bytes of one event: one for a physical write, with bit 1 zero, and none else. -/
theorem busBytes_busCalls (tm : Timing) (addr : BitVec 7) (b : Byte) (ev : Event) :
    busBytes (Spec.busCalls tm addr b ev) = if isPhysicalWrite ev then [b] else [] := by
  cases ev <;> rfl

theorem busBytes_cons (tm : Timing) (addr : BitVec 7) (ls : Lines) (light : Bool) (ev : Event) (evs : List Event) :
    busBytes (expanderCalls tm addr ls light (ev :: evs)) =
      (if isPhysicalWrite ev then [shadowByte (applyEvent ls ev) (lightAfter light ev)] else []) ++
        busBytes (expanderCalls tm addr (applyEvent ls ev) (lightAfter light ev) evs) := by
  rw [expanderCalls_cons, busBytes, List.filterMap_append, ← busBytes, busBytes_busCalls, ← busBytes]

theorem busBytes_length (tm : Timing) (addr : BitVec 7) (ls : Lines) (light : Bool) (evs : List Event) :
    (busBytes (expanderCalls tm addr ls light evs)).length = physicalWrites evs := by
  induction evs generalizing ls light with
  | nil => rfl
  | cons ev evs ih =>
    rw [busBytes_cons, List.length_append, ih, physicalWrites_cons]
    split <;> rfl

theorem busBytes_bit1 (tm : Timing) (addr : BitVec 7) (ls : Lines) (light : Bool) (evs : List Event) :
    ∀ b ∈ busBytes (expanderCalls tm addr ls light evs), b.getLsbD 1 = false := by
  induction evs generalizing ls light with
  | nil => exact nofun
  | cons ev evs ih =>
    rw [busBytes_cons]
    refine List.forall_mem_append.mpr ⟨?_, ih _ _⟩
    split
    · obtain ⟨-, -, -, -, -, -, hbit, -⟩ := shadowByte_bits (applyEvent ls ev) (lightAfter light ev)
      exact List.forall_mem_singleton.mpr hbit
    · exact nofun

theorem addr_of_write_mem {tm : Timing} {addr : BitVec 7} {ls : Lines} {light : Bool} {evs : List Event}
    {a : BitVec 7} {b : Byte} (h : BusCall.write a b ∈ expanderCalls tm addr ls light evs) : a = addr := by
  induction evs generalizing ls light with
  | nil => cases h
  | cons ev evs ih =>
    rw [expanderCalls_cons] at h
    rcases List.mem_append.mp h with hev | hevs
    · cases ev <;> cases List.mem_singleton.mp hev <;> rfl
    · exact ih hevs

/-- Settles O59: each event adds its call with the shadow byte, whose bits are the levels. -/
theorem expanderRendering : Obligations.ExpanderRendering := by
  refine ⟨fun tm addr ls light => ⟨rfl, fun evs ev => ?event, fun evs =>
    ⟨busBytes_length tm addr ls light evs, busBytes_bit1 tm addr ls light evs, fun a b => addr_of_write_mem⟩⟩,
    fun PinId s addr h => ?block⟩
  case event =>
    obtain ⟨h7, h6, h5, h4, h3, h2, h1, h0⟩ :=
      shadowByte_bits (applyEvents ls (evs ++ [ev])) (Spec.lightIsOn light (evs ++ [ev]))
    have level (p : Line) := levelBit_getLine p ls (evs ++ [ev])
    exact ⟨_, expanderCalls_concat tm addr ls light evs ev, h7.trans (level .d7), h6.trans (level .d6),
      h5.trans (level .d5), h4.trans (level .d4), h3, h2.trans (level .e), h1, h0.trans (level .rs)⟩
  case block =>
    have calls : s.expanderCalls = expanderCalls s.cfg.timing addr Lines.released false s.trace := by
      simp only [State.expanderCalls, h]
    refine ⟨calls, fun a b hm => addr_of_write_mem (calls ▸ hm), fun hr => ?_⟩
    rw [calls]
    simp only [State.i2cBytes, h, i2cBytes, hr]

end Sys2Proof.Machine
end
